-- ==== Sys2Proof/Word.lean ====
section
/-! DEFINITION. The word types of the block: a byte, a 64-bit operand and an 80-bit port word. -/

namespace Sys2Proof

/-- One text character, key byte, digest byte or byte operand (`00_scope.md` Table P, `CHARW`). -/
abbrev Byte := BitVec 8

/-- The 64-bit data operand `d` of a command and the result `r` of a response (R60, R61). -/
abbrev Word := BitVec 64

/-- A whole word of the command or the response port: 80 bits (R60, R61). -/
abbrev PortWord := BitVec 80

end Sys2Proof
end

