-- ==== Sys2Proof/Config.lean ====
section
/-! DEFINITION. What is fixed for one block: the parameters of `00_scope.md` Table P that the spec makes
arguments of the model, and the values the spec leaves open (opaque constants, so that nothing can evaluate
them or prove a value of one). -/

namespace Sys2Proof

/-- The hash algorithms of R18; the codes 0, 1, 2 of R71 are `Alg.code` (Machine/Flags.lean). -/
inductive Alg where
  | sha1
  | sha256
  | sha512
deriving DecidableEq, Repr

/-- One known answer of the keyed-hash collaborator: to this request it gives this digest. A list of these is
the plain-data part of the parameter `HMAC` of R8 (log entry 5). -/
structure HmacFact where
  alg    : Alg
  key    : List Byte
  msg    : List Byte
  digest : List Byte
deriving DecidableEq, Repr

/-- The parameters of Table P (R7) marked "model argument". They stand in State because a step takes nothing
but the state; no step changes them (log entry 4). -/
structure Params where
  /-- `KMAX`, capacity of the key buffer; `none` is "unbounded" (R7, D12). -/
  kmax   : Option Nat
  /-- `CMAX`, capacity of the candidate buffer; `none` is "unbounded" (R7, D25). -/
  cmax   : Option Nat
  /-- `WS`, the bytes treated as whitespace (R7, R70, D8). -/
  ws     : List Byte
  /-- `HAS_ENC`, whether the encoder unit is present (R7, D32). -/
  hasEnc : Bool
  /-- The named points of the function `HMAC` (R8); everywhere else it is `Config.hmacByte` (log entry 5). -/
  hmacKnown : List HmacFact
deriving DecidableEq, Repr

/-- The defaults of Table P (R7); no point of `HMAC` is named. -/
def Params.default : Params where
  kmax      := some 64
  cmax      := some 32
  ws        := [0x09#8, 0x0A#8, 0x0B#8, 0x0C#8, 0x0D#8, 0x20#8]
  hasEnc    := true
  hmacKnown := []

/-- R70: "The parameter `WS` must not contain 0x3D, a letter or a digit 2 to 7." -/
def Params.wsLegal (p : Params) : Bool :=
  p.ws.all fun b =>
    !(b == 0x3D#8 || (0x41#8 ≤ b && b ≤ 0x5A#8) || (0x61#8 ≤ b && b ≤ 0x7A#8) || (0x32#8 ≤ b && b ≤ 0x37#8))

/-- Byte `i` of the digest the keyed-hash collaborator gives for an algorithm, a key and a message (R8). FREE
VALUE: a pure function of its arguments and nothing else is known of it (log entry 5). -/
opaque Config.hmacByte : Alg → List Byte → List Byte → Nat → Byte

/-- What the 64-bit result field shows of a length register whose value does not fit 64 bits. FREE VALUE: the
spec states the value of `RD KLEN`, `COMMIT`, `RD CLEN` and `CAND.PUSH` only for lengths that 64 bits can
hold, and an unbounded buffer could hold more (log entry 11). -/
opaque Config.longLength : Nat → Word

end Sys2Proof
end

