-- ==== Sys2Proof/Syntax.lean ====
section
/-! DEFINITION. The commands of the block as syntax: one constructor of `Instr` per row of
spec/opcode_table.json (Table O of `30_encoding.md`, R63), with operands already taken apart. -/

namespace Sys2Proof

/-- The 21 mnemonics of Table O (R63), in its order. -/
inductive Op where
  | init | commit | rd
  | cfgDigits | cfgPeriod | cfgAlg
  | b32Push
  | encClr | encPush | encEnd
  | dgstClr | dgstPush | hotpTrunc | hotpCompute
  | totpCtr | totpRem | totpGen | totpVerify | totpWin
  | candClr | candPush
deriving DecidableEq, Repr

/-- The registers `RD` can name, in the order of their numbers 0 to 17 (`10_state.md` Table R, R27). -/
inductive Reg where
  | status | err | errop | errd
  | digits | period | alg | window
  | klen | nb | clen | dlen
  | offset | p31 | codeval | code | coden
  | enb
deriving DecidableEq, Repr

/-- The time operand of the four `TOTP` time commands (R67): the clock, a time in milliseconds, or a time in
seconds. The reserved selector 3 and a clock operand that is not zero have no term here; the decoder refuses
them by name. -/
inductive TimeArg where
  | clock
  | ms (t : Word)
  | sec (t : Word)
deriving DecidableEq, Repr

/-- One command (R63, Table O). -/
inductive Instr where
  /-- `INIT` (R171). -/
  | init
  /-- `COMMIT` (R172). -/
  | commit
  /-- `RD k` (R176). -/
  | rd (k : Reg)
  /-- `CFG.DIGITS v` (R173): all 64 bits are the value. -/
  | cfgDigits (v : Word)
  /-- `CFG.PERIOD v` (R174). -/
  | cfgPeriod (v : Word)
  /-- `CFG.ALG v` (R175). -/
  | cfgAlg (v : Word)
  /-- `B32.PUSH c` (R91). -/
  | b32Push (c : Byte)
  /-- `ENC.CLR` (R111). -/
  | encClr
  /-- `ENC.PUSH b` (R112). -/
  | encPush (b : Byte)
  /-- `ENC.END` (R113). -/
  | encEnd
  /-- `DGST.CLR` (R121). -/
  | dgstClr
  /-- `DGST.PUSH b` (R122). -/
  | dgstPush (b : Byte)
  /-- `HOTP.TRUNC` (R126). -/
  | hotpTrunc
  /-- `HOTP.COMPUTE c` (R128): the 64-bit counter. -/
  | hotpCompute (c : Word)
  /-- `TOTP.CTR` (R143). -/
  | totpCtr (t : TimeArg)
  /-- `TOTP.REM` (R145). -/
  | totpRem (t : TimeArg)
  /-- `TOTP.GEN` (R146). -/
  | totpGen (t : TimeArg)
  /-- `TOTP.VERIFY` (R154). -/
  | totpVerify (t : TimeArg)
  /-- `TOTP.WIN w` (R147). -/
  | totpWin (w : Word)
  /-- `CAND.CLR` (R148). -/
  | candClr
  /-- `CAND.PUSH c` (R149). -/
  | candPush (c : Byte)
deriving DecidableEq, Repr

/-- The mnemonic of a command. -/
def Instr.op : Instr → Op
  | .init => .init
  | .commit => .commit
  | .rd _ => .rd
  | .cfgDigits _ => .cfgDigits
  | .cfgPeriod _ => .cfgPeriod
  | .cfgAlg _ => .cfgAlg
  | .b32Push _ => .b32Push
  | .encClr => .encClr
  | .encPush _ => .encPush
  | .encEnd => .encEnd
  | .dgstClr => .dgstClr
  | .dgstPush _ => .dgstPush
  | .hotpTrunc => .hotpTrunc
  | .hotpCompute _ => .hotpCompute
  | .totpCtr _ => .totpCtr
  | .totpRem _ => .totpRem
  | .totpGen _ => .totpGen
  | .totpVerify _ => .totpVerify
  | .totpWin _ => .totpWin
  | .candClr => .candClr
  | .candPush _ => .candPush

end Sys2Proof
end

