-- ==== Sys2Proof/WellFormed.lean ====
section
/-! DEFINITION. Which terms are commands of a block: with the encoder unit absent (`HAS_ENC` false) its three
opcodes and the register number 17 are reserved (R66, Table R), so their terms stand for no command. Every
other check of R65 and R66 is in the operand types of `Instr`: no term stands for a reserved bit, a reserved
time selector, a clock operand or a register number above 17. -/

namespace Sys2Proof

/-- `RD` may name the register: all of Table R, number 17 only with the encoder (R27). -/
def Reg.present (hasEnc : Bool) : Reg → Bool
  | .enb => hasEnc
  | .status | .err | .errop | .errd | .digits | .period | .alg | .window | .klen | .nb | .clen | .dlen
  | .offset | .p31 | .codeval | .code | .coden => true

/-- The opcode is one of Table O for this block (R63, R66). -/
def Op.present (hasEnc : Bool) : Op → Bool
  | .encClr | .encPush | .encEnd => hasEnc
  | .init | .commit | .rd | .cfgDigits | .cfgPeriod | .cfgAlg | .b32Push | .dgstClr | .dgstPush | .hotpTrunc
  | .hotpCompute | .totpCtr | .totpRem | .totpGen | .totpVerify | .totpWin | .candClr | .candPush => true

/-- The command exists in a block with or without the encoder (R63, R66, R27). -/
def Instr.wellFormed (hasEnc : Bool) (i : Instr) : Bool :=
  i.op.present hasEnc &&
    match i with
    | .rd k => k.present hasEnc
    | .init | .commit | .cfgDigits _ | .cfgPeriod _ | .cfgAlg _ | .b32Push _ | .encClr | .encPush _ | .encEnd
    | .dgstClr | .dgstPush _ | .hotpTrunc | .hotpCompute _ | .totpCtr _ | .totpRem _ | .totpGen _
    | .totpVerify _ | .totpWin _ | .candClr | .candPush _ => true

end Sys2Proof
end

