-- ==== Sys2Proof/Decode.lean ====
section
/-! DEFINITION. The command word (R60, R63 to R67) read into an `Instr` or refused by name, the encoder written
from the same tables, and the carrying of a word as ten bytes (R78). -/

namespace Sys2Proof

/-- The opcode column of Table O (R63). -/
def Op.code : Op → Byte
  | .init        => 0x01#8
  | .commit      => 0x02#8
  | .rd          => 0x03#8
  | .cfgDigits   => 0x10#8
  | .cfgPeriod   => 0x11#8
  | .cfgAlg      => 0x12#8
  | .b32Push     => 0x20#8
  | .encClr      => 0x28#8
  | .encPush     => 0x29#8
  | .encEnd      => 0x2A#8
  | .dgstClr     => 0x30#8
  | .dgstPush    => 0x31#8
  | .hotpTrunc   => 0x32#8
  | .hotpCompute => 0x33#8
  | .totpCtr     => 0x40#8
  | .totpRem     => 0x41#8
  | .totpGen     => 0x42#8
  | .totpVerify  => 0x43#8
  | .totpWin     => 0x44#8
  | .candClr     => 0x45#8
  | .candPush    => 0x46#8

/-- The rows of Table O. -/
def Op.all : List Op :=
  [.init, .commit, .rd, .cfgDigits, .cfgPeriod, .cfgAlg, .b32Push, .encClr, .encPush, .encEnd, .dgstClr,
   .dgstPush, .hotpTrunc, .hotpCompute, .totpCtr, .totpRem, .totpGen, .totpVerify, .totpWin, .candClr, .candPush]

/-- The row of Table O with this opcode, if there is one (R66: every other opcode is reserved). -/
def Op.ofCode? (c : Byte) : Option Op := Op.all.find? fun o => o.code == c

/-- The number column of Table R (R27). -/
def Reg.num : Reg → Byte
  | .status  => 0#8
  | .err     => 1#8
  | .errop   => 2#8
  | .errd    => 3#8
  | .digits  => 4#8
  | .period  => 5#8
  | .alg     => 6#8
  | .window  => 7#8
  | .klen    => 8#8
  | .nb      => 9#8
  | .clen    => 10#8
  | .dlen    => 11#8
  | .offset  => 12#8
  | .p31     => 13#8
  | .codeval => 14#8
  | .code    => 15#8
  | .coden   => 16#8
  | .enb     => 17#8

/-- The rows of Table R. -/
def Reg.all : List Reg :=
  [.status, .err, .errop, .errd, .digits, .period, .alg, .window, .klen, .nb, .clen, .dlen, .offset, .p31,
   .codeval, .code, .coden, .enb]

/-- The register with this number, if there is one (Table R: 18 to 255 are reserved). -/
def Reg.ofNum? (k : Byte) : Option Reg := Reg.all.find? fun r => r.num == k

/-- Why a word is no command. The step answers every one of these with the refusal IllegalCommand (R65, R66);
`badLength` is for a byte sequence that is not one port word (R78) and never reaches the step. -/
inductive DecodeError where
  | badLength
  | reservedOpcode (op : Byte)
  | operandBits (op : Op)
  | reservedSelector (op : Op)
  | clockOperand (op : Op)
  | reservedRegister (k : Byte)
deriving DecidableEq, Repr

/-- R65, first case: both `a` and `d` must be 0. -/
def decodeNone (i : Instr) (a : Byte) (d : Word) : Except DecodeError Instr :=
  if a = 0#8 ∧ d = 0#64 then .ok i else .error (.operandBits i.op)

/-- R65: `a` must be 0, all of `d` is the value (R64 (b)). -/
def decodeWhole (f : Word → Instr) (a : Byte) (d : Word) : Except DecodeError Instr :=
  if a = 0#8 then .ok (f d) else .error (.operandBits (f d).op)

/-- R65: `a` must be 0 and `d[63:8]` must be 0; the operand is `d[7:0]` (R64 (a)). -/
def decodeByte (f : Byte → Instr) (a : Byte) (d : Word) : Except DecodeError Instr :=
  if a = 0#8 ∧ d.extractLsb' 8 56 = 0#56 then .ok (f (d.extractLsb' 0 8))
  else .error (.operandBits (f (d.extractLsb' 0 8)).op)

/-- R65 and R67: `a[7:2]` must be 0; the selector `a[1:0]` is 0 CLOCK (then `d` must be 0), 1 MS, 2 SEC, 3
reserved. -/
def decodeTime (f : TimeArg → Instr) (a : Byte) (d : Word) : Except DecodeError Instr :=
  if a.extractLsb' 2 6 ≠ 0#6 then .error (.operandBits (f .clock).op)
  else if a.extractLsb' 0 2 = 0#2 then
    if d = 0#64 then .ok (f .clock) else .error (.clockOperand (f .clock).op)
  else if a.extractLsb' 0 2 = 1#2 then .ok (f (.ms d))
  else if a.extractLsb' 0 2 = 2#2 then .ok (f (.sec d))
  else .error (.reservedSelector (f .clock).op)

/-- `RD`: `d` must be 0 and `a` is a register number of Table R, number 17 only with the encoder (R65, R66,
R176). -/
def decodeReg (hasEnc : Bool) (a : Byte) (d : Word) : Except DecodeError Instr :=
  if d ≠ 0#64 then .error (.operandBits .rd)
  else match Reg.ofNum? a with
    | some k => if k.present hasEnc then .ok (.rd k) else .error (.reservedRegister a)
    | none => .error (.reservedRegister a)

/-- The operands of one row of Table O, checked and assembled (R64, R65). -/
def decodeOperands (hasEnc : Bool) (o : Op) (a : Byte) (d : Word) : Except DecodeError Instr :=
  match o with
  | .init        => decodeNone .init a d
  | .commit      => decodeNone .commit a d
  | .rd          => decodeReg hasEnc a d
  | .cfgDigits   => decodeWhole .cfgDigits a d
  | .cfgPeriod   => decodeWhole .cfgPeriod a d
  | .cfgAlg      => decodeWhole .cfgAlg a d
  | .b32Push     => decodeByte .b32Push a d
  | .encClr      => decodeNone .encClr a d
  | .encPush     => decodeByte .encPush a d
  | .encEnd      => decodeNone .encEnd a d
  | .dgstClr     => decodeNone .dgstClr a d
  | .dgstPush    => decodeByte .dgstPush a d
  | .hotpTrunc   => decodeNone .hotpTrunc a d
  | .hotpCompute => decodeWhole .hotpCompute a d
  | .totpCtr     => decodeTime .totpCtr a d
  | .totpRem     => decodeTime .totpRem a d
  | .totpGen     => decodeTime .totpGen a d
  | .totpVerify  => decodeTime .totpVerify a d
  | .totpWin     => decodeWhole .totpWin a d
  | .candClr     => decodeNone .candClr a d
  | .candPush    => decodeByte .candPush a d

/-- The three fields of a command word read as a command (R60, R63, R66); the order of the checks is R194 (1)
to (3). -/
def decodeFields (hasEnc : Bool) (op a : Byte) (d : Word) : Except DecodeError Instr :=
  match Op.ofCode? op with
  | some o => if o.present hasEnc then decodeOperands hasEnc o a d else .error (.reservedOpcode op)
  | none => .error (.reservedOpcode op)

/-- Table F1 (R60): `op` is `w[79:72]`, `a` is `w[71:64]`, `d` is `w[63:0]`. -/
def decodeWord (hasEnc : Bool) (w : PortWord) : Except DecodeError Instr :=
  decodeFields hasEnc (w.extractLsb' 72 8) (w.extractLsb' 64 8) (w.extractLsb' 0 64)

/-- The ten bytes of a port word, most significant first (R78). -/
def wordBytes (w : PortWord) : List Byte :=
  [w.extractLsb' 72 8, w.extractLsb' 64 8, w.extractLsb' 56 8, w.extractLsb' 48 8, w.extractLsb' 40 8,
   w.extractLsb' 32 8, w.extractLsb' 24 8, w.extractLsb' 16 8, w.extractLsb' 8 8, w.extractLsb' 0 8]

/-- The port word ten bytes carry, if there are ten (R78). -/
def bytesWord? : List Byte → Option PortWord
  | [b0, b1, b2, b3, b4, b5, b6, b7, b8, b9] => some (b0 ++ b1 ++ b2 ++ b3 ++ b4 ++ b5 ++ b6 ++ b7 ++ b8 ++ b9)
  | _ => none

/-- The decoder on any bytes: ten bytes are one command word, any other number is none (R68: there is one
length). -/
def decodeBytes (hasEnc : Bool) (bs : List Byte) : Except DecodeError Instr :=
  match bytesWord? bs with
  | some w => decodeWord hasEnc w
  | none => .error .badLength

/-- The command word of three fields (Table F1, R60). -/
def cmdWord (op a : Byte) (d : Word) : PortWord := op ++ a ++ d

/-- The fields `a` and `d` of a time operand (R67). -/
def TimeArg.fields : TimeArg → Byte × Word
  | .clock => (0#8, 0#64)
  | .ms t  => (1#8, t)
  | .sec t => (2#8, t)

/-- The fields `a` and `d` of a command (Table O, R63, R65). -/
def Instr.fields : Instr → Byte × Word
  | .init | .commit | .encClr | .encEnd | .dgstClr | .hotpTrunc | .candClr => (0#8, 0#64)
  | .rd k => (k.num, 0#64)
  | .cfgDigits v | .cfgPeriod v | .cfgAlg v => (0#8, v)
  | .hotpCompute c => (0#8, c)
  | .totpWin w => (0#8, w)
  | .b32Push c | .candPush c => (0#8, c.setWidth 64)
  | .encPush b | .dgstPush b => (0#8, b.setWidth 64)
  | .totpCtr t | .totpRem t | .totpGen t | .totpVerify t => t.fields

/-- The word of a command: Table F1 filled from Table O (R60, R63). -/
def encode (i : Instr) : PortWord := cmdWord i.op.code i.fields.1 i.fields.2

/-- The host's question: the command of a row of spec/opcode_table.json whose bits are `w`, numbered as the table
numbers them, in a block with the default parameters. The word is laid out as its ten bytes (R78) and given to
the decoder. -/
def decodeTableWord (nbits w : Nat) : Option Instr :=
  (decodeBytes Params.default.hasEnc (wordBytes (BitVec.ofNat 80 (w % 2 ^ nbits)))).toOption

end Sys2Proof
end

