-- ==== Sys2Proof/Machine/State.lean ====
section
/-! DEFINITION. The whole state of the block as plain data: every register and buffer of Table S (R10), the ports
the spec gives it (D2), the host's side of the command port, the parameters, and the state after reset (Table
Z, R31). -/

namespace Sys2Proof.Machine

/-- The construction phase (R13). The register's code 3 is never taken, so it has no term. -/
inductive Phase where
  | build
  | ready
  | failed
deriving DecidableEq, Repr

/-- The status codes of Table E (R74); 8 to 255 are never produced. -/
inductive Status where
  | ok
  | invalidEncoding
  | invalidConfiguration
  | illegalCommand
  | wrongPhase
  | keyOverflow
  | bufferOverflow
  | badDigest
deriving DecidableEq, Repr

/-- The errors that end a construction (R190, R192). -/
inductive FatalError where
  | invalidEncoding
  | invalidConfiguration
  | keyOverflow
deriving DecidableEq, Repr

/-- The errors that reject one command (R190, R193). The block goes on after one: it is a next state, not a
refusal of the model. -/
inductive RefusalCause where
  | illegalCommand
  | wrongPhase
  | bufferOverflow
  | badDigest
deriving DecidableEq, Repr

/-- One response word by its fields (R61, Table F2). -/
structure Response where
  st : Status
  n  : Byte
  r  : Word
deriving DecidableEq, Repr

/-- One request on the keyed-hash port: the three arguments of `HMAC` (R8, R75). -/
structure HmacRequest where
  alg : Alg
  key : List Byte
  msg : List Byte
deriving DecidableEq, Repr

/-- What the host and the platform do at the block's inputs in one step: present a command word while the clock
port shows `nowMs` (R6, R30), or assert reset (R220). -/
inductive HostEvent where
  | command (w : PortWord) (nowMs : Word)
  | reset
deriving DecidableEq, Repr

/-- The registers and buffers of Table S, then the ports, the host's events and the parameters. A buffer is the
list of its valid bytes, and its length register is the list's length (R31: "a model may hold a buffer as a list
of exactly its length"; log entry 7). -/
structure State where
  /-- `PHASE` (R13). -/
  phase   : Phase
  /-- `PERR`: some command was refused since reset (R14). -/
  perr    : Bool
  /-- `CANDOVF` (R14). -/
  candovf : Bool
  /-- `DGSTOVF` (R14). -/
  dgstovf : Bool
  /-- `CODEV` (R14). -/
  codev   : Bool
  /-- `ERR`, `ERROP`, `ERRD` (R15). -/
  err     : BitVec 8
  errop   : BitVec 8
  errd    : BitVec 64
  /-- `DIGITS` (R16). -/
  digits  : BitVec 4
  /-- `PERIOD` (R17). -/
  period  : BitVec 64
  /-- `ALG` (R18). -/
  alg     : Alg
  /-- `WINDOW` (R19). -/
  window  : BitVec 64
  /-- `ACC`, `NB`: the decoder's bit buffer (R20). -/
  acc     : BitVec 12
  nb      : BitVec 4
  /-- `KEY[0..KLEN-1]` (R21); `KLEN` is its length. -/
  key     : List Byte
  /-- `EACC`, `ENB`: the encoder's bit buffer (R22). -/
  eacc    : BitVec 12
  enb     : BitVec 4
  /-- `DGST[0..DLEN-1]` (R23); `DLEN` is its length. -/
  dgst    : List Byte
  /-- `OFFSET`, `P31`, `CODEVAL` (R24). -/
  offset  : BitVec 4
  p31     : BitVec 31
  codeval : BitVec 27
  /-- `CODE[0..7]` and `CODEN` (R25). -/
  code    : Vector Byte 8
  coden   : BitVec 4
  /-- `CAND[0..CLEN-1]` (R26); `CLEN` is its length. -/
  cand    : List Byte
  /-- The input port `NOW_MS` as the current step sees it (R30; log entry 3). -/
  nowMs   : BitVec 64
  /-- The response port: the answer of the last command, none before the first one since reset (R61; log entry
  8). -/
  resp    : Option Response
  /-- The keyed-hash port: the requests the last command issued, in order (R50, R155; log entry 8). -/
  reqs    : List HmacRequest
  /-- The host's coming events, next first; the outside world, not a queue of the block (R10, R12; log entry 1). -/
  host    : List HostEvent
  /-- The parameters of Table P (R7; log entry 4). -/
  params  : Params
deriving DecidableEq, Repr

/-- The block never stops: every error the spec names is a response and a next state (R190, R206), and no rule
gives a command no effect. So there is no fault, and the type is empty. -/
inductive Fault
deriving DecidableEq, Repr

/-- Why the model has no meaning for a command. -/
inductive Refusal where
  /-- Raised by `exec` alone, for a command that has no meaning yet. Safe: nothing is claimed of such a command.
  No command of this block is left so. -/
  | notModelled (mnemonic : String)
deriving DecidableEq, Repr

/-- Table Z, column "value after reset" (R31, R220), with the default parameters (R7), no event of the host, and
an idle response and keyed-hash port (log entries 3 and 8). -/
def State.reset : State where
  phase   := .build
  perr    := false
  candovf := false
  dgstovf := false
  codev   := false
  err     := 0#8
  errop   := 0#8
  errd    := 0#64
  digits  := 6#4
  period  := 30#64
  alg     := .sha1
  window  := 1#64
  acc     := 0#12
  nb      := 0#4
  key     := []
  eacc    := 0#12
  enb     := 0#4
  dgst    := []
  offset  := 0#4
  p31     := 0#31
  codeval := 0#27
  code    := #v[0#8, 0#8, 0#8, 0#8, 0#8, 0#8, 0#8, 0#8]
  coden   := 0#4
  cand    := []
  nowMs   := 0#64
  resp    := none
  reqs    := []
  host    := []
  params  := Params.default

end Sys2Proof.Machine
end

