-- ==== Sys2Proof/Machine/Flags.lean ====
section
/-! DEFINITION. Codes and flags: the numbers of phases, algorithms and status codes, and the STATUS word of `RD`.
The block has no condition codes; its four flags are named bits of State (R14). -/

namespace Sys2Proof.Machine

/-- R13: BUILD 0, READY 1, FAILED 2. -/
def Phase.code : Phase → BitVec 2
  | .build  => 0#2
  | .ready  => 1#2
  | .failed => 2#2

/-- R71: 0 SHA1, 1 SHA256, 2 SHA512. -/
def algCode : Alg → BitVec 2
  | .sha1   => 0#2
  | .sha256 => 1#2
  | .sha512 => 2#2

/-- R71 read the other way: any other value of `d` is unsupported. -/
def algOfCode? (d : Word) : Option Alg :=
  if d = 0#64 then some .sha1 else if d = 1#64 then some .sha256 else if d = 2#64 then some .sha512 else none

/-- Table E (R74). -/
def Status.code : Status → Byte
  | .ok                   => 0#8
  | .invalidEncoding      => 1#8
  | .invalidConfiguration => 2#8
  | .illegalCommand       => 3#8
  | .wrongPhase           => 4#8
  | .keyOverflow          => 5#8
  | .bufferOverflow       => 6#8
  | .badDigest            => 7#8

/-- The status a fatal error answers with (R190, Table E). -/
def FatalError.status : FatalError → Status
  | .invalidEncoding      => .invalidEncoding
  | .invalidConfiguration => .invalidConfiguration
  | .keyOverflow          => .keyOverflow

/-- The status a refusal answers with (R190, Table E). -/
def RefusalCause.status : RefusalCause → Status
  | .illegalCommand => .illegalCommand
  | .wrongPhase     => .wrongPhase
  | .bufferOverflow => .bufferOverflow
  | .badDigest      => .badDigest

/-- Table F2 (R61): `st` is `q[79:72]`, `n` is `q[71:64]`, `r` is `q[63:0]`. -/
def Response.word (q : Response) : PortWord := q.st.code ++ q.n ++ q.r

/-- Register 0 of Table R (R27): `r[1:0]` PHASE, `r[2]` PERR, `r[3]` CANDOVF, `r[4]` DGSTOVF, `r[5]` CODEV, the
rest 0. -/
def statusWord (s : State) : Word :=
  (0#58 ++ BitVec.ofBool s.codev ++ BitVec.ofBool s.dgstovf ++ BitVec.ofBool s.candovf ++ BitVec.ofBool s.perr
    ++ s.phase.code : BitVec 64)

end Sys2Proof.Machine
end

