-- ==== Sys2Proof/Machine/Ops.lean ====
section
/-! DEFINITION. The operations every command is built from: answering, the two kinds of error (R192, R193) and the
way out of FAILED (R171, R196), the phase check, big-endian bytes and packed strings, the buffers, and the
truncation engine's functions. -/

namespace Sys2Proof.Machine

/-- What a meaning answers. -/
abbrev Result := Host.Outcome State Fault Refusal

/-! ### Answering -/

/-- `respond(OK, n, r)` of a command that issues no keyed-hash request (`00_scope.md` section 6, R61). -/
def respond (n : Byte) (r : Word) (s : State) : State :=
  { s with resp := some ⟨.ok, n, r⟩, reqs := [] }

/-- `respond(OK, n, r)` of a command that issued the keyed-hash requests `qs`, in this order (R50). -/
def respondAfter (qs : List HmacRequest) (n : Byte) (r : Word) (s : State) : State :=
  { s with resp := some ⟨.ok, n, r⟩, reqs := qs }

/-! ### Errors -/

/-- Entering FAILED (R192): the phase, the three error registers, the partial key dropped, the status answered
with `n` and `r` 0 (R61). -/
def raiseFatal (e : FatalError) (op : Op) (d : Word) (s : State) : State :=
  { s with
    phase := .failed
    err   := e.status.code
    errop := op.code
    errd  := d
    acc   := 0#12
    nb    := 0#4
    key   := []
    resp  := some ⟨e.status, 0#8, 0#64⟩
    reqs  := [] }

/-- Refusing one command (R193): `PERR` and the response, nothing else. -/
def raiseRefusal (e : RefusalCause) (s : State) : State :=
  { s with perr := true, resp := some ⟨e.status, 0#8, 0#64⟩, reqs := [] }

/-- The way out of FAILED, and of any other phase: the registers of Table Z at their "after INIT" value, `PERR` and
the encoder kept (R171, R196, R221). -/
def beginConstruction (s : State) : State :=
  { s with
    phase   := .build
    candovf := false
    dgstovf := false
    codev   := false
    err     := 0#8
    errop   := 0#8
    errd    := 0#64
    digits  := 6#4
    period  := 30#64
    alg     := .sha1
    window  := 1#64
    acc     := 0#12
    nb      := 0#4
    key     := []
    dgst    := []
    offset  := 0#4
    p31     := 0#31
    codeval := 0#27
    code    := #v[0#8, 0#8, 0#8, 0#8, 0#8, 0#8, 0#8, 0#8]
    coden   := 0#4
    cand    := [] }

/-- The reset input (R220): every register at its reset value, no response; the clock port, the host and the
parameters are not the block's to change (log entry 18). -/
def assertReset (s : State) : State :=
  { State.reset with nowMs := s.nowMs, host := s.host, params := s.params }

/-! ### Checks before a command's own effect -/

/-- The phase check (R177, Table A): a command outside its phases is refused with WrongPhase. -/
def requirePhase (allowed : Bool) (body : State) (s : State) : State :=
  if allowed then body else raiseRefusal .wrongPhase s

/-- The encoder's opcodes are reserved when `HAS_ENC` is false (R66); the decoder refuses their words already (log
entry 10). -/
def requireEncoder (body : State) (s : State) : State :=
  if s.params.hasEnc then body else raiseRefusal .illegalCommand s

/-- Table A: accepted in BUILD only. -/
def Phase.inBuild (p : Phase) : Bool := p == .build

/-- Table A: accepted in READY only. -/
def Phase.inReady (p : Phase) : Bool := p == .ready

/-- Table A: accepted in BUILD and READY. -/
def Phase.notFailed (p : Phase) : Bool := p != .failed

/-- A buffer of this capacity and length has no room: its length register equals the capacity (R96, R149); an
unbounded buffer always has room. -/
def bufferFull (cap : Option Nat) (len : Nat) : Bool :=
  match cap with
  | some k => len == k
  | none   => false

/-- A length register shown in a 64-bit field (R27 `zext_64`). A length that 64 bits cannot hold, which only an
unbounded buffer could reach, shows a free value (log entry 11). -/
def lengthWord (len : Nat) : Word :=
  if len < 2 ^ 64 then BitVec.ofNat 64 len else Config.longLength len

/-! ### Numbers and bytes -/

/-- `be(b0, .., bk)`: the big-endian number of a byte sequence (`00_scope.md` section 6, R42). -/
def be (bs : List Byte) : Nat := bs.foldl (fun v b => v * 256 + b.toNat) 0

/-- `be8(v)`: the 8 bytes of a 64-bit number, most significant first (R42, R124). -/
def be8 (v : Word) : List Byte :=
  [v.extractLsb' 56 8, v.extractLsb' 48 8, v.extractLsb' 40 8, v.extractLsb' 32 8, v.extractLsb' 24 8,
   v.extractLsb' 16 8, v.extractLsb' 8 8, v.extractLsb' 0 8]

/-- `str(b0..b(k-1))`: up to 8 bytes packed, first byte highest, the rest 0 (R62). -/
def packString (bs : List Byte) : Word :=
  BitVec.ofNat 64 (be (bs ++ List.replicate (8 - bs.length) 0#8))

/-- `render(v, dg)`: character `j` is `0x30 + ((v div 10^(dg-1-j)) mod 10)` (R73). -/
def render (v dg : Nat) : List Byte :=
  (List.range dg).map fun j => BitVec.ofNat 8 (0x30 + v / 10 ^ (dg - 1 - j) % 10)

/-! ### The keyed hash -/

/-- `HLEN(alg)`: 20, 32 and 64 bytes (R7, Table P). -/
def hlen : Alg → Nat
  | .sha1   => 20
  | .sha256 => 32
  | .sha512 => 64

/-- `HMAC(alg, key, msg)`: exactly `HLEN(alg)` bytes that depend on the three arguments alone (R8). The parameters
may name its value at some points; a named digest of another length is no digest (R8, D27) and is passed over
(log entries 5 and 6). -/
def keyedHash (p : Params) (q : HmacRequest) : List Byte :=
  match p.hmacKnown.find? fun f => f.alg == q.alg && f.key == q.key && f.msg == q.msg && f.digest.length == hlen q.alg with
  | some f => f.digest
  | none   => (List.range (hlen q.alg)).map (Config.hmacByte q.alg q.key q.msg)

/-! ### The truncation engine -/

/-- The four components of `dt` (R123). -/
structure Truncation where
  off  : BitVec 4
  p31  : BitVec 31
  val  : BitVec 27
  code : List Byte
deriving DecidableEq, Repr

/-- `off = g[L-1] & 0x0F` (R123). -/
def truncOffset (g : List Byte) : BitVec 4 := (g.getD (g.length - 1) 0#8 &&& 0x0F#8).setWidth 4

/-- `p31`: the 4 bytes from `off` as a big-endian 32-bit number with bit 31 cleared (R123, R42 (b)). -/
def truncP31 (g : List Byte) (off : Nat) : BitVec 31 :=
  ((g.getD off 0#8 ++ g.getD (off + 1) 0#8 ++ g.getD (off + 2) 0#8 ++ g.getD (off + 3) 0#8 : BitVec 32)
    &&& 0x7FFFFFFF#32).setWidth 31

/-- `dt(g, L, dg)` for the bytes `g` of a digest, `L` their number (R123); outside its domain log entry 12. -/
def dt (g : List Byte) (dg : Nat) : Truncation :=
  let off := truncOffset g
  let p31 := truncP31 g off.toNat
  let val := p31.toNat % 10 ^ dg
  ⟨off, p31, BitVec.ofNat 27 val, render val dg⟩

/-- The request `hotp` makes for a counter: the message is `be8(counter)` (R75, R124, R127). -/
def hotpRequest (s : State) (c : Word) : HmacRequest := ⟨s.alg, s.key, be8 c⟩

/-- The digest of a counter under the block's key and algorithm (R127). -/
def hotpDigest (s : State) (c : Word) : List Byte := keyedHash s.params (hotpRequest s c)

/-- `hotp(KEY, counter, DIGITS, ALG)` after the digest (R127). -/
def hotpTrunc (s : State) (c : Word) : Truncation := dt (hotpDigest s c) s.digits.toNat

/-- `CODE[0..7]` holding a code: its bytes, then 0x00 (R25, R131). -/
def codeLatch (code : List Byte) : Vector Byte 8 :=
  #v[code.getD 0 0#8, code.getD 1 0#8, code.getD 2 0#8, code.getD 3 0#8,
     code.getD 4 0#8, code.getD 5 0#8, code.getD 6 0#8, code.getD 7 0#8]

/-- `latch`, bypass form (R131). -/
def latch (t : Truncation) (s : State) : State :=
  { s with
    offset  := t.off
    p31     := t.p31
    codeval := t.val
    code    := codeLatch t.code
    coden   := s.digits
    codev   := true }

/-- `latch`, keyed form: the digest is written too and `DGSTOVF` cleared (R131). -/
def latchKeyed (g : List Byte) (t : Truncation) (s : State) : State :=
  { latch t s with dgst := g, dgstovf := false }

/-- One keyed computation at a counter with its result latched and answered: what `HOTP.COMPUTE` and `TOTP.GEN`
share (R128, R146). -/
def computeAt (c : Word) (s : State) : State :=
  let t := hotpTrunc s c
  respondAfter [hotpRequest s c] (s.digits.setWidth 8) (packString t.code)
    (latchKeyed (hotpDigest s c) t s)

end Sys2Proof.Machine
end

