-- ==== Sys2Proof/Machine/Operands.lean ====
section
/-! DEFINITION. What a command's operands denote: the class of a character (R70), the time of a time operand
(R141) and its counter (R142, R144), the value of a register `RD` names (R27), the candidate trimmed (R150). -/

namespace Sys2Proof.Machine

/-- The classes of R70. -/
inductive CharClass where
  | skip
  | sym (v : BitVec 5)
  | invalid
deriving DecidableEq, Repr

/-- `cls(c)`, the first case that applies wins (R70). -/
def cls (ws : List Byte) (c : Byte) : CharClass :=
  if c ∈ ws then .skip
  else if c = 0x3D#8 then .skip
  else if 0x41#8 ≤ c ∧ c ≤ 0x5A#8 then .sym ((c - 0x41#8).setWidth 5)
  else if 0x61#8 ≤ c ∧ c ≤ 0x7A#8 then .sym ((c - 0x61#8).setWidth 5)
  else if 0x32#8 ≤ c ∧ c ≤ 0x37#8 then .sym ((c - 0x32#8 + 26#8).setWidth 5)
  else .invalid

/-- `sym(v)`: the ASCII code of the symbol of value `v` (Table A32, R69, R110). -/
def symChar (v : BitVec 5) : Byte :=
  if v < 26#5 then 0x41#8 + v.setWidth 8 else 0x32#8 + (v.setWidth 8 - 26#8)

/-- `resolve(tsel, d)`: the time in whole seconds (R141). -/
def resolveTime (t : TimeArg) (s : State) : Nat :=
  match t with
  | .clock => s.nowMs.toNat / 1000
  | .ms d  => d.toNat / 1000
  | .sec d => d.toNat

/-- `counter_at(T) = T div PERIOD` (R142). -/
def counterAt (period : Word) (T : Nat) : Nat := T / period.toNat

/-- `time_remaining(T) = PERIOD - (T mod PERIOD)` (R144). -/
def timeRemaining (period : Word) (T : Nat) : Nat := period.toNat - T % period.toNat

/-- What `RD` shows of a latch of the truncation engine: its contents while `CODEV` is 1, "meaningful only" then (R24), and
zeros while no code is latched (`93_implementation_defined.md` U14; log entry 24). -/
def whileLatched {w : Nat} (s : State) (v : BitVec w) : BitVec w := if s.codev then v else 0#w

/-- The value column of Table R (R27). `CODE` is a packed string; `CODEN` counts its characters. With `CODEV` 0 the four
result latches read as zeros (U14). -/
def readReg (k : Reg) (s : State) : Word :=
  match k with
  | .status  => statusWord s
  | .err     => s.err.setWidth 64
  | .errop   => s.errop.setWidth 64
  | .errd    => s.errd
  | .digits  => s.digits.setWidth 64
  | .period  => s.period
  | .alg     => (algCode s.alg).setWidth 64
  | .window  => s.window
  | .klen    => lengthWord s.key.length
  | .nb      => s.nb.setWidth 64
  | .clen    => lengthWord s.cand.length
  | .dlen    => lengthWord s.dgst.length
  | .offset  => whileLatched s (s.offset.setWidth 64)
  | .p31     => whileLatched s (s.p31.setWidth 64)
  | .codeval => whileLatched s (s.codeval.setWidth 64)
  | .code    => whileLatched s (packString (s.code.toList.take s.coden.toNat))
  | .coden   => s.coden.setWidth 64
  | .enb     => s.enb.setWidth 64

/-- The count `n` that goes with a register read: `CODEN` for `CODE` (0 while `CODEV` is 0, U14), else 0 (R27, R176). -/
def readCount (k : Reg) (s : State) : Byte :=
  match k with
  | .code => whileLatched s (s.coden.setWidth 8)
  | .status | .err | .errop | .errd | .digits | .period | .alg | .window | .klen | .nb | .clen | .dlen
  | .offset | .p31 | .codeval | .coden | .enb => 0#8

/-- `trim(s)`: without the longest run of `WS` bytes in front, then without the longest such run at the end
(R150). -/
def trim (ws : List Byte) (bs : List Byte) : List Byte :=
  ((bs.dropWhile (· ∈ ws)).reverse.dropWhile (· ∈ ws)).reverse

end Sys2Proof.Machine
end

