-- ==== Sys2Proof/Machine/Construct.lean ====
section
/-! DEFINITION. Construction, configuration and register read (`44_instance_config.md`): `INIT`, `COMMIT`, `RD`,
`CFG.DIGITS`, `CFG.PERIOD`, `CFG.ALG`. -/

namespace Sys2Proof.Machine

/-- `INIT` (R171): accepted in every phase. -/
def execInit (s : State) : Result := .next (respond 0#8 0#64 (beginConstruction s))

/-- `COMMIT` (R172): the trailing bits are dropped unexamined (R97). -/
def execCommit (s : State) : Result :=
  .next <| requirePhase s.phase.inBuild
    (respond 0#8 (lengthWord s.key.length) { s with acc := 0#12, nb := 0#4, phase := .ready }) s

/-- `RD k` (R176): reading changes no register. -/
def execRd (k : Reg) (s : State) : Result :=
  .next <|
    if k.present s.params.hasEnc then respond (readCount k s) (readReg k s) s
    else raiseRefusal .illegalCommand s

/-- `CFG.DIGITS v` (R173): 6, 7 and 8 are legal. -/
def execCfgDigits (v : Word) (s : State) : Result :=
  .next <| requirePhase s.phase.inBuild
    (if v = 6#64 ∨ v = 7#64 ∨ v = 8#64 then respond 0#8 0#64 { s with digits := v.setWidth 4 }
     else raiseFatal .invalidConfiguration .cfgDigits v s) s

/-- `CFG.PERIOD v` (R174): every value but 0 is legal. -/
def execCfgPeriod (v : Word) (s : State) : Result :=
  .next <| requirePhase s.phase.inBuild
    (if v = 0#64 then raiseFatal .invalidConfiguration .cfgPeriod v s
     else respond 0#8 0#64 { s with period := v }) s

/-- `CFG.ALG v` (R175): 0, 1 and 2 are legal. -/
def execCfgAlg (v : Word) (s : State) : Result :=
  .next <| requirePhase s.phase.inBuild
    (match algOfCode? v with
      | some a => respond 0#8 0#64 { s with alg := a }
      | none   => raiseFatal .invalidConfiguration .cfgAlg v s) s

end Sys2Proof.Machine
end

