-- ==== Sys2Proof/Machine/Decoder.lean ====
section
/-! DEFINITION. The Base32 decoder (`40_base32_decoder.md`): `B32.PUSH`. -/

namespace Sys2Proof.Machine

/-- A symbol enters the bit buffer (R94): `(ACC << 5) | v` with 5 more bits counted; with 8 or more counted the top
8 leave as a key byte and the rest stay, unless the key buffer is full (R96). -/
def pushSymbol (c : Byte) (v : BitVec 5) (s : State) : State :=
  let acc12 := s.acc.toNat * 2 ^ 5 + v.toNat
  let nb := s.nb.toNat + 5
  if 8 ≤ nb then
    if bufferFull s.params.kmax s.key.length then raiseFatal .keyOverflow .b32Push (c.setWidth 64) s
    else respond 1#8 0#64
      { s with
        key := s.key ++ [BitVec.ofNat 8 (acc12 / 2 ^ (nb - 8))]
        acc := BitVec.ofNat 12 (acc12 % 2 ^ (nb - 8))
        nb  := BitVec.ofNat 4 (nb - 8) }
  else respond 0#8 0#64 { s with acc := BitVec.ofNat 12 acc12, nb := BitVec.ofNat 4 nb }

/-- `B32.PUSH c` (R91 to R96). -/
def execB32Push (c : Byte) (s : State) : Result :=
  .next <| requirePhase s.phase.inBuild
    (match cls s.params.ws c with
      | .skip    => respond 0#8 0#64 s
      | .invalid => raiseFatal .invalidEncoding .b32Push (c.setWidth 64) s
      | .sym v   => pushSymbol c v s) s

end Sys2Proof.Machine
end

