-- ==== Sys2Proof/Machine/Encoder.lean ====
section
/-! DEFINITION. The Base32 encoder (`41_base32_encoder.md`): `ENC.CLR`, `ENC.PUSH`, `ENC.END`. -/

namespace Sys2Proof.Machine

/-- The loop of R112, at most `fuel` turns: while 5 or more of the `nb` counted bits of `acc` are left, the top 5
leave as one character. Answers the characters and the bits left over. -/
def emitGroups : Nat → Nat → Nat → List Byte × Nat
  | 0, _, nb => ([], nb)
  | fuel + 1, acc, nb =>
    if 5 ≤ nb then
      let rest := emitGroups fuel acc (nb - 5)
      (symChar (BitVec.ofNat 5 (acc / 2 ^ (nb - 5))) :: rest.1, rest.2)
    else ([], nb)

/-- `ENC.CLR` (R111). -/
def execEncClr (s : State) : Result :=
  .next <| requireEncoder (respond 0#8 0#64 { s with eacc := 0#12, enb := 0#4 }) s

/-- `ENC.PUSH b` (R112). Each turn of the loop takes 5 bits, so `nb` turns are always enough. -/
def execEncPush (b : Byte) (s : State) : Result :=
  let acc := s.eacc.toNat * 2 ^ 8 + b.toNat
  let nb := s.enb.toNat + 8
  let out := emitGroups nb acc nb
  .next <| requireEncoder
    (respond (BitVec.ofNat 8 out.1.length) (packString out.1)
      { s with eacc := BitVec.ofNat 12 (acc % 2 ^ out.2), enb := BitVec.ofNat 4 out.2 }) s

/-- `ENC.END` (R113): the last group filled with zero bits at its low end. -/
def execEncEnd (s : State) : Result :=
  .next <| requireEncoder
    (if s.enb = 0#4 then respond 0#8 0#64 s
     else respond 1#8 (packString [symChar (BitVec.ofNat 5 (s.eacc.toNat * 2 ^ (5 - s.enb.toNat)))])
       { s with eacc := 0#12, enb := 0#4 }) s

end Sys2Proof.Machine
end

