-- ==== Sys2Proof/Machine/Totp.lean ====
section
/-! DEFINITION. The TOTP counter and window comparator (`43_totp_counter_window.md`): the time commands, the window
and the candidate. -/

namespace Sys2Proof.Machine

/-- `TOTP.CTR` (R143). -/
def execTotpCtr (t : TimeArg) (s : State) : Result :=
  .next <| requirePhase s.phase.inReady
    (respond 0#8 (BitVec.ofNat 64 (counterAt s.period (resolveTime t s))) s) s

/-- `TOTP.REM` (R145). -/
def execTotpRem (t : TimeArg) (s : State) : Result :=
  .next <| requirePhase s.phase.inReady
    (respond 0#8 (BitVec.ofNat 64 (timeRemaining s.period (resolveTime t s))) s) s

/-- `TOTP.GEN` (R146): `HOTP.COMPUTE` at the counter of the time. -/
def execTotpGen (t : TimeArg) (s : State) : Result :=
  .next <| requirePhase s.phase.inReady
    (computeAt (BitVec.ofNat 64 (counterAt s.period (resolveTime t s))) s) s

/-- The walk of R152 over `n` counters from `c` up: does one match, and how many were tried (R155: none after the
first match). -/
def windowWalk (hit : Nat → Bool) : Nat → Nat → Bool × Nat
  | _, 0 => (false, 0)
  | c, n + 1 =>
    if hit c then (true, 1)
    else
      let rest := windowWalk hit (c + 1) n
      (rest.1, rest.2 + 1)

/-- The first counter tried, `max(0, now - w)` (R152, R153). -/
def windowLow (now w : Nat) : Nat := now - w

/-- The last counter tried, `min(2^64-1, now + w)` (R152, R153). -/
def windowHigh (now w : Nat) : Nat := min (2 ^ 64 - 1) (now + w)

/-- R151: the trimmed candidate is the code of counter `c`, byte for byte and of the same length. -/
def candidateMatches (s : State) (cand : List Byte) (c : Nat) : Bool :=
  cand == (hotpTrunc s (BitVec.ofNat 64 c)).code

/-- `TOTP.VERIFY` (R154): refused while the candidate is cut off, else the walk over the window; nothing is latched
(R156). The counters R153 skips are left out of the walk at both ends (log entry 14). -/
def execTotpVerify (t : TimeArg) (s : State) : Result :=
  .next <| requirePhase s.phase.inReady
    (if s.candovf then raiseRefusal .bufferOverflow s
     else
      let now := counterAt s.period (resolveTime t s)
      let low := windowLow now s.window.toNat
      let walk := windowWalk (candidateMatches s (trim s.params.ws s.cand)) low (windowHigh now s.window.toNat + 1 - low)
      respondAfter ((List.range walk.2).map fun j => hotpRequest s (BitVec.ofNat 64 (low + j)))
        0#8 (if walk.1 then 1#64 else 0#64) s) s

/-- `TOTP.WIN w` (R147). -/
def execTotpWin (w : Word) (s : State) : Result :=
  .next <| requirePhase s.phase.notFailed (respond 0#8 0#64 { s with window := w }) s

/-- `CAND.CLR` (R148). -/
def execCandClr (s : State) : Result :=
  .next <| requirePhase s.phase.notFailed (respond 0#8 0#64 { s with cand := [], candovf := false }) s

/-- `CAND.PUSH c` (R149). -/
def execCandPush (c : Byte) (s : State) : Result :=
  .next <| requirePhase s.phase.notFailed
    (if bufferFull s.params.cmax s.cand.length then raiseRefusal .bufferOverflow { s with candovf := true }
     else respond 0#8 (lengthWord (s.cand.length + 1)) { s with cand := s.cand ++ [c] }) s

end Sys2Proof.Machine
end

