-- ==== Sys2Proof/Machine/Truncate.lean ====
section
/-! DEFINITION. The HOTP truncation engine (`42_hotp_truncation.md`): `DGST.CLR`, `DGST.PUSH`, `HOTP.TRUNC`,
`HOTP.COMPUTE`. -/

namespace Sys2Proof.Machine

/-- `DMAX`: the digest buffer holds 64 bytes (R7, R122). -/
def dmax : Nat := 64

/-- `DGST.CLR` (R121): the digest and the last code are wiped. -/
def execDgstClr (s : State) : Result :=
  .next <| requirePhase s.phase.notFailed
    (respond 0#8 0#64
      { s with
        dgst    := []
        dgstovf := false
        codev   := false
        offset  := 0#4
        p31     := 0#31
        codeval := 0#27
        code    := #v[0#8, 0#8, 0#8, 0#8, 0#8, 0#8, 0#8, 0#8]
        coden   := 0#4 }) s

/-- `DGST.PUSH b` (R122). -/
def execDgstPush (b : Byte) (s : State) : Result :=
  .next <| requirePhase s.phase.notFailed
    (if s.dgst.length = dmax then raiseRefusal .bufferOverflow { s with dgstovf := true }
     else respond 0#8 (lengthWord (s.dgst.length + 1)) { s with dgst := s.dgst ++ [b], codev := false }) s

/-- The digest in `DGST` can be truncated: loaded whole, not empty, and the 4 bytes exist (R126, Table X). -/
def digestUsable (s : State) : Bool :=
  !s.dgstovf && s.dgst.length != 0 && decide ((truncOffset s.dgst).toNat + 4 ≤ s.dgst.length)

/-- `HOTP.TRUNC` (R126). -/
def execHotpTrunc (s : State) : Result :=
  .next <| requirePhase s.phase.notFailed
    (if digestUsable s then
      let t := dt s.dgst s.digits.toNat
      respond (s.digits.setWidth 8) (packString t.code) (latch t s)
     else raiseRefusal .badDigest s) s

/-- `HOTP.COMPUTE c` (R128). -/
def execHotpCompute (c : Word) (s : State) : Result :=
  .next <| requirePhase s.phase.inReady (computeAt c s) s

end Sys2Proof.Machine
end

