-- ==== Sys2Proof/Machine/Dispatch.lean ====
section
/-! DEFINITION. One arm per command: the meaning it calls. -/

namespace Sys2Proof.Machine

def exec (i : Instr) (s : State) : Host.Outcome State Fault Refusal :=
  match i with
  | .init => Sys2Proof.Machine.execInit s
  | .commit => Sys2Proof.Machine.execCommit s
  | .rd k => Sys2Proof.Machine.execRd k s
  | .cfgDigits v => Sys2Proof.Machine.execCfgDigits v s
  | .cfgPeriod v => Sys2Proof.Machine.execCfgPeriod v s
  | .cfgAlg v => Sys2Proof.Machine.execCfgAlg v s
  | .b32Push c => Sys2Proof.Machine.execB32Push c s
  | .encClr => Sys2Proof.Machine.execEncClr s
  | .encPush b => Sys2Proof.Machine.execEncPush b s
  | .encEnd => Sys2Proof.Machine.execEncEnd s
  | .dgstClr => Sys2Proof.Machine.execDgstClr s
  | .dgstPush b => Sys2Proof.Machine.execDgstPush b s
  | .hotpTrunc => Sys2Proof.Machine.execHotpTrunc s
  | .hotpCompute c => Sys2Proof.Machine.execHotpCompute c s
  | .totpCtr t => Sys2Proof.Machine.execTotpCtr t s
  | .totpRem t => Sys2Proof.Machine.execTotpRem t s
  | .totpGen t => Sys2Proof.Machine.execTotpGen t s
  | .totpVerify t => Sys2Proof.Machine.execTotpVerify t s
  | .totpWin w => Sys2Proof.Machine.execTotpWin w s
  | .candClr => Sys2Proof.Machine.execCandClr s
  | .candPush c => Sys2Proof.Machine.execCandPush c s

end Sys2Proof.Machine
end

