-- ==== Sys2Proof/Machine/Step.lean ====
section
/-! DEFINITION. One step of the block: the host's next event is taken, a command word is decoded and performed, a
word that is no command is refused with IllegalCommand (R66), reset puts Table Z in place (R220), and with no
event the block does nothing (R195, R204). -/

namespace Sys2Proof.Machine

/-- One command word presented to the block (R6): decoded (R194 (1) to (3)) and performed, or refused. -/
def runWord (w : PortWord) (s : State) : Host.Outcome State Fault Refusal :=
  match decodeWord s.params.hasEnc w with
  | .ok i    => exec i s
  | .error _ => .next (raiseRefusal .illegalCommand s)

/-- One step (R6, R48, R220). The clock port shows the event's value while its command runs (R30). -/
def step (s : State) : Host.Outcome State Fault Refusal :=
  match s.host with
  | [] => .next s
  | .command w nowMs :: rest => runWord w { s with host := rest, nowMs := nowMs }
  | .reset :: rest => .next (assertReset { s with host := rest })

/-- The host presents the word `w` of `nbits` bits next, the clock port as it is. -/
def State.withFetchWord (s : State) (nbits w : Nat) : State :=
  { s with host := .command (BitVec.ofNat 80 (w % 2 ^ nbits)) s.nowMs :: s.host }

end Sys2Proof.Machine
end

