-- ==== Sys2Proof/Machine/Pseudo.lean ====
section
/-! DEFINITION. The pseudo-instructions of R77: each is a sequence of commands with no encoding of its own. -/

namespace Sys2Proof.Machine

/-- The pseudo-instructions of R77 with their operands; an operand left out is `none`. -/
inductive Pseudo where
  | b32Str (text : List Byte)
  | candStr (text : List Byte)
  | dgstHex (bytes : List Byte)
  | encStr (bytes : List Byte)
  | construct (secret : List Byte) (digits period alg : Option Word)
  | generate
  | generateAt (ms : Word)
  | verify (cand : List Byte) (w : Option Word)
  | getCounter
  | getTimeRemaining
deriving DecidableEq, Repr

/-- The "expansion" column of R77. -/
def Pseudo.expand : Pseudo → List Instr
  | .b32Str text => text.map .b32Push
  | .candStr text => .candClr :: text.map .candPush
  | .dgstHex bytes => .dgstClr :: bytes.map .dgstPush
  | .encStr bytes => .encClr :: bytes.map .encPush ++ [.encEnd]
  | .construct secret digits period alg =>
    .init :: digits.toList.map .cfgDigits ++ period.toList.map .cfgPeriod ++ alg.toList.map .cfgAlg
      ++ secret.map .b32Push ++ [.commit]
  | .generate => [.totpGen .clock]
  | .generateAt ms => [.totpGen (.ms ms)]
  | .verify cand w => .candClr :: cand.map .candPush ++ [.totpWin (w.getD 1#64), .totpVerify .clock]
  | .getCounter => [.totpCtr .clock]
  | .getTimeRemaining => [.totpRem .clock]

/-- The last command was answered OK (R61). -/
def lastOk (s : State) : Bool :=
  match s.resp with
  | some q => q.st == .ok
  | none   => false

/-- R77: the commands in order; at a status other than OK the expansion stops there. Each command is one step (R6). -/
def perform : List Instr → State → Result
  | [], s => .next s
  | i :: is, s =>
    match exec i s with
    | .next t    => if lastOk t then perform is t else .next t
    | .fault e   => .fault e
    | .refused e => .refused e

/-- The responses of `perform`, in order. -/
def performAnswers : List Instr → State → List Response
  | [], _ => []
  | i :: is, s =>
    match exec i s with
    | .next t    => t.resp.toList ++ if lastOk t then performAnswers is t else []
    | .fault _   => []
    | .refused _ => []

/-- The characters of a string answer: the first `n` bytes of `r` (R62). -/
def Response.chars (q : Response) : List Byte := (List.range q.n.toNat).map fun j => q.r.extractLsb' (56 - 8 * j) 8

/-- A pseudo-instruction performed (R77). -/
def execPseudo (p : Pseudo) (s : State) : Result := perform p.expand s

/-- The result of `ENC.STR` (R77): the characters its responses return, in order. -/
def pseudoText (p : Pseudo) (s : State) : List Byte := (performAnswers p.expand s).flatMap Response.chars

end Sys2Proof.Machine
end

