-- ==== Sys2Proof/Safety.lean ====
section
/-! DEFINITION. What the spec promises of every state between steps, and what counts as a clean session, in the terms
the claims use. -/

namespace Sys2Proof

/-- No whitespace byte is an ASCII digit. R70 forbids only the digits 2 to 7 in `WS`; the law R158 also needs that a
code's first and last character are not trimmed away (log entry 17). -/
def Params.wsNoDigit (p : Params) : Bool := p.ws.all fun b => !(0x30#8 ≤ b && b ≤ 0x39#8)

end Sys2Proof

namespace Sys2Proof.Machine

/-- A length within a capacity; an unbounded buffer has no capacity to exceed (R7, R40). -/
def withinCapacity (len : Nat) (cap : Option Nat) : Prop := ∀ k, cap = some k → len ≤ k

/-- What holds of the registers between steps, each conjunct from the rule that states it. -/
structure Inv (s : State) : Prop where
  /-- R16: `DIGITS` "always holds 6, 7 or 8, in every phase". -/
  digits_legal : s.digits = 6#4 ∨ s.digits = 7#4 ∨ s.digits = 8#4
  /-- R17: `PERIOD` "always holds a value from 1 to 2^64-1". -/
  period_pos   : s.period ≠ 0#64
  /-- R20: `0 ≤ NB ≤ 7`. -/
  nb_le        : s.nb.toNat ≤ 7
  /-- R20: `ACC < 2^NB`. -/
  acc_lt       : s.acc.toNat < 2 ^ s.nb.toNat
  /-- R22: `0 ≤ ENB ≤ 4`. -/
  enb_le       : s.enb.toNat ≤ 4
  /-- R22: `EACC < 2^ENB`. -/
  eacc_lt      : s.eacc.toNat < 2 ^ s.enb.toNat
  /-- R21: `KLEN` runs from 0 to `KMAX`. -/
  key_fits     : withinCapacity s.key.length s.params.kmax
  /-- R26, Table S: `CLEN` runs from 0 to `CMAX`. -/
  cand_fits    : withinCapacity s.cand.length s.params.cmax
  /-- R23: `DLEN` is 0 to 64. -/
  dgst_fits    : s.dgst.length ≤ 64
  /-- R14: the flag was set by a push into the full buffer, and only `CAND.CLR`, `INIT` and reset empty it. -/
  candovf_full : s.candovf = true → s.params.cmax = some s.cand.length
  /-- R14: likewise for the digest buffer. -/
  dgstovf_full : s.dgstovf = true → s.dgst.length = 64
  /-- R25: `CODEN` is 0 or the digit count a code was rendered with. -/
  coden_legal  : s.coden = 0#4 ∨ s.coden = 6#4 ∨ s.coden = 7#4 ∨ s.coden = 8#4
  /-- R25: `CODE[0..CODEN-1]` are the digits of `CODEVAL` (R24), the rest 0x00. -/
  code_latched : s.code = codeLatch (render s.codeval.toNat s.coden.toNat)
  /-- R24: `CODEVAL` was reduced modulo 10^digits. -/
  codeval_lt   : s.codeval.toNat < 10 ^ s.coden.toNat
  /-- R24: `CODEVAL` is `P31` reduced. -/
  codeval_eq   : s.codeval.toNat = s.p31.toNat % 10 ^ s.coden.toNat
  /-- R14: with `CODEV` set the latches hold a completed truncation. -/
  codev_coden  : s.codev = true → s.coden ≠ 0#4
  /-- R15: in FAILED, `ERR` is the code of a fatal error. -/
  err_failed   : s.phase = .failed → s.err = 1#8 ∨ s.err = 2#8 ∨ s.err = 5#8
  /-- R15: outside FAILED the three error registers are 0. -/
  err_clear    : s.phase ≠ .failed → s.err = 0#8 ∧ s.errop = 0#8 ∧ s.errd = 0#64
  /-- R97, R192: outside BUILD the decoder's bit buffer is empty. -/
  acc_idle     : s.phase ≠ .build → s.acc = 0#12 ∧ s.nb = 0#4
  /-- R192: in FAILED the partial key is gone. -/
  key_dropped  : s.phase = .failed → s.key = []

/-- The block answered OK to the last command (R61). -/
def State.answeredOk (s : State) : Bool :=
  match s.resp with
  | some q => q.st == .ok
  | none   => false

/-- The status of the last answer, if there was one since reset. -/
def State.lastStatus (s : State) : Option Status := s.resp.map (·.st)

/-- A clean session so far (R193, R238): no command was refused since reset, and no construction stands failed. -/
def State.clean (s : State) : Bool := !s.perr && s.phase != .failed

end Sys2Proof.Machine
end

