-- ==== Sys2Proof/Certificates/Slice0/Obligations.lean ====
section
/-! DEFINITION. The statements for the provers, and above them the words they are stated in: the spec's pseudocode
written out again over whole command words and whole states, without the operations the meanings are built from. -/

namespace Sys2Proof.Spec

open Sys2Proof.Machine

/-! ### Presenting a command and answering it -/

/-- The state `s` with the command word `op a d` presented next, the clock port as `s` has it (R60, R78). -/
def offer (op a : Byte) (d : Word) (s : State) : State :=
  { s with host := .command (op ++ a ++ d) s.nowMs :: s.host }

/-- `respond(OK, n, r)` with no keyed-hash request. -/
def answer (n : Byte) (r : Word) (s : State) : State := { s with resp := some ⟨.ok, n, r⟩, reqs := [] }

/-- R193. -/
def refuse (st : Status) (s : State) : State := { s with perr := true, resp := some ⟨st, 0#8, 0#64⟩, reqs := [] }

/-- R192: `code` is the number Table E gives the status. -/
def failWith (st : Status) (code op : Byte) (d : Word) (s : State) : State :=
  { s with
    phase := .failed, err := code, errop := op, errd := d, acc := 0#12, nb := 0#4, key := []
    resp := some ⟨st, 0#8, 0#64⟩, reqs := [] }

/-- The result field of the answer a command gives, as a number. -/
def resultOf (i : Instr) (s : State) : Nat :=
  match exec i s with
  | .next t => match t.resp with
    | some q => q.r.toNat
    | none => 0
  | .fault _ => 0
  | .refused _ => 0

/-- The characters a string answer holds (R62): the first `n` bytes of `r`. -/
def answerChars (t : State) : List Byte :=
  match t.resp with
  | some q => (List.range q.n.toNat).map fun j => q.r.extractLsb' (56 - 8 * j) 8
  | none => []

/-- Commands performed one after the other; the answers are not looked at. -/
def performAll : List Instr → State → Host.Outcome State Fault Refusal
  | [], s => .next s
  | i :: is, s =>
    match exec i s with
    | .next t => performAll is t
    | .fault e => .fault e
    | .refused e => .refused e

/-! ### Construction -/

/-- A length register in the 64-bit result field (R27 `zext_64`): the number itself; a length that 64 bits cannot hold, for
which the spec states no result, is the model's free value (log entry 11). -/
def lengthShown (len : Nat) : Word := if len < 2 ^ 64 then BitVec.ofNat 64 len else Config.longLength len

/-- Table Z, column "value after `INIT`" (R171). -/
def afterInit (s : State) : State :=
  { s with
    phase := .build, candovf := false, dgstovf := false, codev := false
    err := 0#8, errop := 0#8, errd := 0#64
    digits := 6#4, period := 30#64, alg := .sha1, window := 1#64
    acc := 0#12, nb := 0#4, key := [], dgst := []
    offset := 0#4, p31 := 0#31, codeval := 0#27, code := Vector.replicate 8 0#8, coden := 0#4
    cand := [] }

/-- The value of register number `k` (Table R), 0 for a number outside it; the latches of numbers 12 to 15 read as zeros
while no code is latched (U14; log entry 24). -/
def tableR (k : Nat) (s : State) : Word :=
  let flag (b : Bool) (w : Nat) : Nat := if b then w else 0
  match k with
  | 0 => BitVec.ofNat 64
      ((match s.phase with | .build => 0 | .ready => 1 | .failed => 2)
        + flag s.perr 4 + flag s.candovf 8 + flag s.dgstovf 16 + flag s.codev 32)
  | 1 => BitVec.ofNat 64 s.err.toNat
  | 2 => BitVec.ofNat 64 s.errop.toNat
  | 3 => s.errd
  | 4 => BitVec.ofNat 64 s.digits.toNat
  | 5 => s.period
  | 6 => match s.alg with | .sha1 => 0#64 | .sha256 => 1#64 | .sha512 => 2#64
  | 7 => s.window
  | 8 => lengthShown s.key.length
  | 9 => BitVec.ofNat 64 s.nb.toNat
  | 10 => lengthShown s.cand.length
  | 11 => lengthShown s.dgst.length
  | 12 => if s.codev then BitVec.ofNat 64 s.offset.toNat else 0#64
  | 13 => if s.codev then BitVec.ofNat 64 s.p31.toNat else 0#64
  | 14 => if s.codev then BitVec.ofNat 64 s.codeval.toNat else 0#64
  | 15 => if s.codev then packString (s.code.toList.take s.coden.toNat) else 0#64
  | 16 => BitVec.ofNat 64 s.coden.toNat
  | 17 => BitVec.ofNat 64 s.enb.toNat
  | _ => 0#64

/-- R176 after its checks, with U14. -/
def readAnswer (k : Nat) (s : State) : State :=
  answer (if k = 15 ∧ s.codev = true then BitVec.ofNat 8 s.coden.toNat else 0#8) (tableR k s) s

/-- R172 after its checks. -/
def commitEffect (s : State) : State :=
  answer 0#8 (lengthShown s.key.length) { s with acc := 0#12, nb := 0#4, phase := .ready }

/-- R173 after the phase check. -/
def cfgDigitsEffect (d : Word) (s : State) : State :=
  if d.toNat = 6 ∨ d.toNat = 7 ∨ d.toNat = 8 then answer 0#8 0#64 { s with digits := BitVec.ofNat 4 d.toNat }
  else failWith .invalidConfiguration 2#8 0x10#8 d s

/-- R174 after the phase check. -/
def cfgPeriodEffect (d : Word) (s : State) : State :=
  if d.toNat = 0 then failWith .invalidConfiguration 2#8 0x11#8 d s else answer 0#8 0#64 { s with period := d }

/-- R175 after the phase check. -/
def cfgAlgEffect (d : Word) (s : State) : State :=
  if 2 < d.toNat then failWith .invalidConfiguration 2#8 0x12#8 d s
  else answer 0#8 0#64
    { s with alg := if d.toNat = 0 then .sha1 else if d.toNat = 1 then .sha256 else .sha512 }

/-! ### The codec -/

/-- R91 after the phase check, `c` the character and `d` the operand it came in. -/
def b32PushEffect (c : Byte) (d : Word) (s : State) : State :=
  match cls s.params.ws c with
  | .skip => answer 0#8 0#64 s
  | .invalid => failWith .invalidEncoding 1#8 0x20#8 d s
  | .sym v =>
    let acc12 := (s.acc.toNat <<< 5) ||| v.toNat
    let nb := s.nb.toNat + 5
    if nb < 8 then answer 0#8 0#64 { s with acc := BitVec.ofNat 12 acc12, nb := BitVec.ofNat 4 nb }
    else if s.params.kmax = some s.key.length then failWith .keyOverflow 5#8 0x20#8 d s
    else answer 1#8 0#64
      { s with
        key := s.key ++ [BitVec.ofNat 8 ((acc12 >>> (nb - 8)) % 256)]
        acc := BitVec.ofNat 12 (acc12 % 2 ^ (nb - 8)), nb := BitVec.ofNat 4 (nb - 8) }

/-- The symbols of Table A32 in the order of their values. -/
def tableA32 : List Byte :=
  [0x41#8, 0x42#8, 0x43#8, 0x44#8, 0x45#8, 0x46#8, 0x47#8, 0x48#8,
   0x49#8, 0x4A#8, 0x4B#8, 0x4C#8, 0x4D#8, 0x4E#8, 0x4F#8, 0x50#8,
   0x51#8, 0x52#8, 0x53#8, 0x54#8, 0x55#8, 0x56#8, 0x57#8, 0x58#8,
   0x59#8, 0x5A#8, 0x32#8, 0x33#8, 0x34#8, 0x35#8, 0x36#8, 0x37#8]

/-- The symbol of a value below 32. -/
def symbol (v : Nat) : Byte := tableA32.getD v 0#8

/-- R112 after its checks, for a buffer that keeps R22: 8 or 9 counted bits give one character, 10 to 12 give two. -/
def encPushEffect (b : Byte) (s : State) : State :=
  let acc := (s.eacc.toNat <<< 8) ||| b.toNat
  let nb := s.enb.toNat + 8
  if nb < 10 then
    answer 1#8 (packString [symbol ((acc >>> (nb - 5)) % 32)])
      { s with eacc := BitVec.ofNat 12 (acc % 2 ^ (nb - 5)), enb := BitVec.ofNat 4 (nb - 5) }
  else
    answer 2#8 (packString [symbol ((acc >>> (nb - 5)) % 32), symbol ((acc >>> (nb - 10)) % 32)])
      { s with eacc := BitVec.ofNat 12 (acc % 2 ^ (nb - 10)), enb := BitVec.ofNat 4 (nb - 10) }

/-- R113 after its checks. -/
def encEndEffect (s : State) : State :=
  if 0 < s.enb.toNat then
    answer 1#8 (packString [symbol ((s.eacc.toNat <<< (5 - s.enb.toNat)) % 32)]) { s with eacc := 0#12, enb := 0#4 }
  else answer 0#8 0#64 s

/-- The bits of a number of `w` bits, most significant first. -/
def bitsOf {w : Nat} (v : BitVec w) : List Bool := (List.range w).map fun i => v.getLsbD (w - 1 - i)

/-- The values of the SYM characters of a text, in order (R99). -/
def symbolsOf (ws : List Byte) (text : List Byte) : List (BitVec 5) :=
  text.filterMap fun c => match cls ws c with
    | .sym v => some v
    | .skip => none
    | .invalid => none

/-- The characters the encoder answers for a byte sequence, then at its end (R114), from the state `s`. -/
def encodeFrom (s : State) : List Byte → List Byte
  | [] => match exec .encEnd s with
    | .next t => answerChars t
    | .fault _ => []
    | .refused _ => []
  | b :: bs => match exec (.encPush b) s with
    | .next t => answerChars t ++ encodeFrom t bs
    | .fault _ => []
    | .refused _ => []

/-- `b32_encode(x)` (R114): `ENC.CLR`, then the bytes, then `ENC.END`. -/
def b32Encode (s : State) (x : List Byte) : List Byte :=
  match exec .encClr s with
  | .next t => encodeFrom t x
  | .fault _ => []
  | .refused _ => []

/-- The decoder's start state (R98) in a construction. -/
def decoderFresh (s : State) : Prop := s.phase = .build ∧ s.acc = 0#12 ∧ s.nb = 0#4 ∧ s.key = []

/-- A key of this length fits the key buffer. -/
def keyRoom (s : State) (len : Nat) : Prop := withinCapacity len s.params.kmax

/-! ### The truncation engine -/

/-- `dt(g, L, dg)` in exact arithmetic (R123): the offset, `p31`, the value. -/
def dtOffset (g : List Byte) : Nat := (g.getD (g.length - 1) 0#8).toNat % 16

/-- R123, R42 (b). -/
def dtP31 (g : List Byte) : Nat :=
  let byte (j : Nat) : Nat := (g.getD (dtOffset g + j) 0#8).toNat
  (byte 0 * 2 ^ 24 + byte 1 * 2 ^ 16 + byte 2 * 2 ^ 8 + byte 3) % 2 ^ 31

/-- R131 on the four results of `dt` for the digest `g` under the configured digit count, bypass form. -/
def latched (g : List Byte) (s : State) : State :=
  let val := dtP31 g % 10 ^ s.digits.toNat
  let code := render val s.digits.toNat
  { s with
    offset := BitVec.ofNat 4 (dtOffset g), p31 := BitVec.ofNat 31 (dtP31 g), codeval := BitVec.ofNat 27 val
    code := Vector.ofFn fun j => code.getD j.val 0#8
    coden := s.digits, codev := true }

/-- The code the engine gives for a digest under the configured digit count. -/
def codeOf (g : List Byte) (s : State) : List Byte := render (dtP31 g % 10 ^ s.digits.toNat) s.digits.toNat

/-- The keyed-hash request of counter `c` (R75, R127). -/
def requestAt (s : State) (c : Nat) : HmacRequest := ⟨s.alg, s.key, be8 (BitVec.ofNat 64 c)⟩

/-- The digest the collaborator answers for counter `c`. -/
def digestAt (s : State) (c : Nat) : List Byte := keyedHash s.params (requestAt s c)

/-- The code of counter `c`: the last component of `hotp` (R127). -/
def codeAt (s : State) (c : Nat) : List Byte := codeOf (digestAt s c) s

/-- R121 after its checks. -/
def dgstClrEffect (s : State) : State :=
  answer 0#8 0#64
    { s with
      dgst := [], dgstovf := false, codev := false, offset := 0#4, p31 := 0#31, codeval := 0#27
      code := Vector.replicate 8 0#8, coden := 0#4 }

/-- R122 after its checks. -/
def dgstPushEffect (b : Byte) (s : State) : State :=
  if s.dgst.length = 64 then refuse .bufferOverflow { s with dgstovf := true }
  else answer 0#8 (lengthShown (s.dgst.length + 1)) { s with dgst := s.dgst ++ [b], codev := false }

/-- The digest of the bypass path cannot be truncated (R126, Table X). -/
abbrev badDigest (s : State) : Prop :=
  s.dgstovf = true ∨ s.dgst.length = 0 ∨ s.dgst.length < dtOffset s.dgst + 4

/-- R126 after its checks. -/
def hotpTruncEffect (s : State) : State :=
  answer (BitVec.ofNat 8 s.digits.toNat) (packString (codeOf s.dgst s)) (latched s.dgst s)

/-- R128 after its checks, and R146 at the counter of the time: one request, the keyed latch, the code. -/
def computeEffect (c : Nat) (s : State) : State :=
  { latched (digestAt s c) s with
    dgst := digestAt s c, dgstovf := false
    resp := some ⟨.ok, BitVec.ofNat 8 s.digits.toNat, packString (codeAt s c)⟩
    reqs := [requestAt s c] }

/-! ### The comparator -/

/-- R65, R67: the operand bits of a time command are malformed. -/
abbrev timeWordBad (a : Byte) (d : Word) : Prop := 4 ≤ a.toNat ∨ a.toNat = 3 ∨ (a.toNat = 0 ∧ d.toNat ≠ 0)

/-- `resolve(tsel, d)` for a well-formed time word (R141). -/
def secondsOfWord (a : Byte) (d : Word) (s : State) : Nat :=
  if a.toNat = 0 then s.nowMs.toNat / 1000 else if a.toNat = 1 then d.toNat / 1000 else d.toNat

/-- `resolve` for a time operand (R141). -/
def secondsOf (t : TimeArg) (s : State) : Nat :=
  match t with
  | .clock => s.nowMs.toNat / 1000
  | .ms d => d.toNat / 1000
  | .sec d => d.toNat

/-- R143 after its checks, at the time `T`. -/
def ctrEffect (T : Nat) (s : State) : State := answer 0#8 (BitVec.ofNat 64 (T / s.period.toNat)) s

/-- R145 after its checks, at the time `T`. -/
def remEffect (T : Nat) (s : State) : State :=
  answer 0#8 (BitVec.ofNat 64 (s.period.toNat - T % s.period.toNat)) s

/-- The loop of R154 as it is written, `n` turns from index `i`: the counters are mathematical integers, those outside
the 64-bit range are skipped (R153), and the first match ends it. Answers the result and the counters tried. -/
def verifyLoop (hit : Nat → Bool) (now : Int) : Nat → Int → Bool × List Nat
  | 0, _ => (false, [])
  | n + 1, i =>
    if now + i < 0 ∨ now + i > 2 ^ 64 - 1 then verifyLoop hit now n (i + 1)
    else if hit (now + i).toNat then (true, [(now + i).toNat])
    else ((verifyLoop hit now n (i + 1)).1, (now + i).toNat :: (verifyLoop hit now n (i + 1)).2)

/-- R151: the trimmed candidate equals the code of counter `c`. -/
def hitAt (s : State) (c : Nat) : Bool := decide (trim s.params.ws s.cand = codeAt s c)

/-- R154 after its checks, at the time `T`. -/
def verifyEffect (T : Nat) (s : State) : State :=
  let run := verifyLoop (hitAt s) (T / s.period.toNat : Nat) (2 * s.window.toNat + 1) (-(s.window.toNat : Int))
  { s with resp := some ⟨.ok, 0#8, if run.1 then 1#64 else 0#64⟩, reqs := run.2.map (requestAt s) }

/-- R149 after its checks. -/
def candPushEffect (c : Byte) (s : State) : State :=
  if s.params.cmax = some s.cand.length then refuse .bufferOverflow { s with candovf := true }
  else answer 0#8 (lengthShown (s.cand.length + 1)) { s with cand := s.cand ++ [c] }

/-! ### Whole-machine tables -/

/-- Table A (R177): the command is accepted in the phase. -/
def tableA (o : Op) (p : Phase) : Bool :=
  match o with
  | .init | .rd | .encClr | .encPush | .encEnd => true
  | .cfgDigits | .cfgPeriod | .cfgAlg | .b32Push | .commit => p == .build
  | .totpWin | .candClr | .candPush | .dgstClr | .dgstPush | .hotpTrunc => p == .build || p == .ready
  | .hotpCompute | .totpCtr | .totpRem | .totpGen | .totpVerify => p == .ready

/-- The statuses of fatal errors (R190). -/
def isFatal (st : Status) : Bool := st == .invalidEncoding || st == .invalidConfiguration || st == .keyOverflow

/-- The statuses of refusals (R190). -/
def isRefusal (st : Status) : Bool :=
  st == .illegalCommand || st == .wrongPhase || st == .bufferOverflow || st == .badDigest

/-- The row of Table O with this opcode number (R63). -/
def tableO (op : Byte) : Option Op :=
  match op.toNat with
  | 0x01 => some .init | 0x02 => some .commit | 0x03 => some .rd
  | 0x10 => some .cfgDigits | 0x11 => some .cfgPeriod | 0x12 => some .cfgAlg
  | 0x20 => some .b32Push
  | 0x28 => some .encClr | 0x29 => some .encPush | 0x2A => some .encEnd
  | 0x30 => some .dgstClr | 0x31 => some .dgstPush | 0x32 => some .hotpTrunc | 0x33 => some .hotpCompute
  | 0x40 => some .totpCtr | 0x41 => some .totpRem | 0x42 => some .totpGen | 0x43 => some .totpVerify
  | 0x44 => some .totpWin | 0x45 => some .candClr | 0x46 => some .candPush
  | _ => none

/-- R66: the opcode is reserved. -/
def reservedOpcode (hasEnc : Bool) (op : Byte) : Bool :=
  match tableO op with
  | none => true
  | some .encClr | some .encPush | some .encEnd => !hasEnc
  | some _ => false

/-- R65 and the selector and register rules of R66: the operand bits of a row of Table O are legal. -/
def operandsLegal (hasEnc : Bool) (o : Op) (a : Byte) (d : Word) : Bool :=
  match o with
  | .init | .commit | .encClr | .encEnd | .dgstClr | .hotpTrunc | .candClr => a.toNat == 0 && d.toNat == 0
  | .rd => d.toNat == 0 && (decide (a.toNat ≤ 16) || (a.toNat == 17 && hasEnc))
  | .cfgDigits | .cfgPeriod | .cfgAlg | .hotpCompute | .totpWin => a.toNat == 0
  | .b32Push | .encPush | .dgstPush | .candPush => a.toNat == 0 && decide (d.toNat < 256)
  | .totpCtr | .totpRem | .totpGen | .totpVerify => decide (a.toNat < 3) && (a.toNat != 0 || d.toNat == 0)

/-- A command word is legal: R65, R66. -/
def wordLegal (hasEnc : Bool) (op a : Byte) (d : Word) : Bool :=
  match tableO op with
  | some o => !reservedOpcode hasEnc op && operandsLegal hasEnc o a d
  | none => false

/-- The checks a command makes itself, after the phase check (R194 (5), Table X): the status they decide. -/
def ownVerdict (o : Op) (d : Word) (s : State) : Status :=
  match o with
  | .cfgDigits => if d.toNat = 6 ∨ d.toNat = 7 ∨ d.toNat = 8 then .ok else .invalidConfiguration
  | .cfgPeriod => if d.toNat = 0 then .invalidConfiguration else .ok
  | .cfgAlg => if 2 < d.toNat then .invalidConfiguration else .ok
  | .b32Push =>
    match cls s.params.ws (d.setWidth 8) with
    | .skip => .ok
    | .invalid => .invalidEncoding
    | .sym _ => if 8 ≤ s.nb.toNat + 5 ∧ s.params.kmax = some s.key.length then .keyOverflow else .ok
  | .dgstPush => if s.dgst.length = 64 then .bufferOverflow else .ok
  | .hotpTrunc => if badDigest s then .badDigest else .ok
  | .totpVerify => if s.candovf = true then .bufferOverflow else .ok
  | .candPush => if s.params.cmax = some s.cand.length then .bufferOverflow else .ok
  | .init | .commit | .rd | .encClr | .encPush | .encEnd | .dgstClr | .hotpCompute | .totpCtr | .totpRem | .totpGen
  | .totpWin | .candClr => .ok

/-- The status a command word gets: the first failing check decides (R194), and the causes are those of Table X
(R191). -/
def verdict (op a : Byte) (d : Word) (s : State) : Status :=
  match tableO op with
  | none => .illegalCommand
  | some o =>
    if wordLegal s.params.hasEnc op a d = false then .illegalCommand
    else if tableA o s.phase = false then .wrongPhase
    else ownVerdict o d s

/-- The two states hold the same instance in READY, under the same parameters and the same clock reading (R33). -/
def sameInstance (s s' : State) : Prop :=
  s.phase = .ready ∧ s'.phase = .ready ∧ s.key = s'.key ∧ s.digits = s'.digits ∧ s.period = s'.period ∧
    s.alg = s'.alg ∧ s.params = s'.params ∧ s.nowMs = s'.nowMs

/-- The state with other contents in the buffers and accumulators no command may read back (R28). -/
def withSecrets (key dgst cand : List Byte) (acc eacc : BitVec 12) (s : State) : State :=
  { s with key := key, dgst := dgst, cand := cand, acc := acc, eacc := eacc }

end Sys2Proof.Spec

open Sys2Proof Sys2Proof.Machine Sys2Proof.Spec

/-! ## Reset, step and encoding -/

/-- R31, Table Z: the state right after reset, and the state after `INIT` from any state. The response port, the
keyed-hash port, the clock port, the host's events and the parameters are the model's own fields and are not named here
(log entries 1, 3, 4, 8). -/
def Obligations.ResetStateIsTableZ : Prop :=
  (let z := State.reset
   z.phase = .build ∧ z.perr = false ∧ z.candovf = false ∧ z.dgstovf = false ∧ z.codev = false ∧
    z.err = 0#8 ∧ z.errop = 0#8 ∧ z.errd = 0#64 ∧ z.digits = 6#4 ∧ z.period = 30#64 ∧ z.alg = .sha1 ∧
    z.window = 1#64 ∧ z.acc = 0#12 ∧ z.nb = 0#4 ∧ z.key = [] ∧ z.eacc = 0#12 ∧ z.enb = 0#4 ∧ z.dgst = [] ∧
    z.offset = 0#4 ∧ z.p31 = 0#31 ∧ z.codeval = 0#27 ∧ z.code = Vector.replicate 8 0#8 ∧ z.coden = 0#4 ∧ z.cand = []) ∧
  (∀ s : State, ∃ z, exec .init s = .next z ∧
    z.phase = .build ∧ z.perr = s.perr ∧ z.candovf = false ∧ z.dgstovf = false ∧ z.codev = false ∧
    z.err = 0#8 ∧ z.errop = 0#8 ∧ z.errd = 0#64 ∧ z.digits = 6#4 ∧ z.period = 30#64 ∧ z.alg = .sha1 ∧
    z.window = 1#64 ∧ z.acc = 0#12 ∧ z.nb = 0#4 ∧ z.key = [] ∧ z.eacc = s.eacc ∧ z.enb = s.enb ∧ z.dgst = [] ∧
    z.offset = 0#4 ∧ z.p31 = 0#31 ∧ z.codeval = 0#27 ∧ z.code = Vector.replicate 8 0#8 ∧ z.coden = 0#4 ∧ z.cand = [])

/-- The reset input `t` and `INIT` `u`, from the same state, differ in `PERR`, `EACC` and `ENB` only (R221); both destroy
the key. That the two output ports show nothing after reset is the model's own (log entry 8, unsafe), and that the clock
port, the later events and the parameters are kept by both is the model's choice (log entry 18). -/
def Obligations.ResetInputIsInitAndClearsPerrAndEncoder : Prop :=
  ∀ (s : State) (rest : List HostEvent), s.host = .reset :: rest →
    ∃ t u, step s = .next t ∧ exec .init { s with host := rest } = .next u ∧
      t = { u with perr := false, eacc := 0#12, enb := 0#4, resp := none, reqs := [] } ∧
      u.perr = s.perr ∧ u.eacc = s.eacc ∧ u.enb = s.enb ∧ t.key = [] ∧ u.key = []

/-- The reset input leaves the state after reset, from any state (R220); that the clock port, the host's later events and
the parameters are kept is the model's choice (log entry 18), and that the output ports show nothing is its own (log
entry 8, unsafe). -/
def Obligations.ResetInputLeavesTheResetState : Prop :=
  ∀ (s : State) (rest : List HostEvent), s.host = .reset :: rest →
    step s = .next { State.reset with nowMs := s.nowMs, host := rest, params := s.params }

/-- Every step runs the command the presented word decodes to, at the clock reading presented with it; a word that
decodes to nothing is refused with IllegalCommand (R66); with nothing presented the block does nothing (R195). The
event list and the clock field are the model's own (log entries 1, 2, 3), and so is the last clause, that
`withFetchWord` presents its word as the next event (log entry 16). -/
def Obligations.StepRunsTheDecodedCommand : Prop :=
  (∀ (s : State) (w : PortWord) (now : Word) (rest : List HostEvent) (i : Instr),
    s.host = .command w now :: rest → decodeWord s.params.hasEnc w = .ok i →
      step s = exec i { s with host := rest, nowMs := now }) ∧
  (∀ (s : State) (w : PortWord) (now : Word) (rest : List HostEvent) (e : DecodeError),
    s.host = .command w now :: rest → decodeWord s.params.hasEnc w = .error e →
      step s = .next (refuse .illegalCommand { s with host := rest, nowMs := now })) ∧
  (∀ s : State, s.host = [] → step s = .next s) ∧
  (∀ (s : State) (i : Instr), i.wellFormed s.params.hasEnc = true →
    step (s.withFetchWord 80 (encode i).toNat) = exec i s)

/-- A command consumes its one event and leaves the host's later events, the parameters and the clock port as they are.
That these stand in the state is the model's choice (log entries 1, 3, 4). -/
def Obligations.CommandsLeaveTheInputsAlone : Prop :=
  ∀ (op a : Byte) (d : Word) (s : State), ∃ t, step (offer op a d s) = .next t ∧
    t.host = s.host ∧ t.params = s.params ∧ t.nowMs = s.nowMs

/-- Decoding what the encoder writes gives the command back, for every command of a block with or without the encoder
unit and every operand (R60, R63 to R67). -/
def Obligations.DecodeOfEncodeIsTheCommand : Prop :=
  ∀ (hasEnc : Bool) (i : Instr), i.wellFormed hasEnc = true → decodeWord hasEnc (encode i) = .ok i

/-- A word that decodes is the encoding of the command it decodes to, and of no other: no bit of a command word is
ignored (R65). -/
def Obligations.DecodedWordIsTheEncodingOfItsCommand : Prop :=
  ∀ (hasEnc : Bool) (w : PortWord) (i : Instr), decodeWord hasEnc w = .ok i →
    encode i = w ∧ i.wellFormed hasEnc = true

/-- Words written out from Table O and the spec's own examples decode to their commands, and as ten bytes most
significant first (R78). The name of the reason a word is refused for is the model's (log entry 9), and that two bytes are
no word and are refused by name is the model's choice (log entry 20). -/
def Obligations.WordsOfTheSpecDecode : Prop :=
  decodeWord true 0x0300_0000000000000000#80 = .ok (.rd .status) ∧
  decodeWord true 0x0311_0000000000000000#80 = .ok (.rd .enb) ∧
  decodeWord true 0x1000_0000000000000009#80 = .ok (.cfgDigits 9#64) ∧
  decodeWord true 0x2000_0000000000000031#80 = .ok (.b32Push 0x31#8) ∧
  decodeWord true 0x2900_0000000000000066#80 = .ok (.encPush 0x66#8) ∧
  decodeWord true 0x3300_0000000000000001#80 = .ok (.hotpCompute 1#64) ∧
  decodeWord true 0x4000_0000000000000000#80 = .ok (.totpCtr .clock) ∧
  decodeWord true 0x4101_000000000000EA5F#80 = .ok (.totpRem (.ms 59999#64)) ∧
  decodeWord true 0x4202_000000000000003B#80 = .ok (.totpGen (.sec 59#64)) ∧
  decodeWord true 0x4003_0000000000000000#80 = .error (.reservedSelector .totpCtr) ∧
  decodeBytes true [0x42#8, 0x02#8, 0#8, 0#8, 0#8, 0#8, 0#8, 0#8, 0#8, 0x3B#8] = .ok (.totpGen (.sec 59#64)) ∧
  decodeBytes true [0x42#8, 0x02#8] = .error .badLength

/-- R78: a command word and a response word are carried as ten bytes, `op` (`st`) first, `a` (`n`) second, then `d` (`r`)
from its most significant byte, and the bytes give the same word back. -/
def Obligations.PortWordTravelsAsTenBytes : Prop :=
  (∀ w : PortWord, bytesWord? (wordBytes w) = some w ∧ (wordBytes w).length = 10) ∧
  (∀ (op a : Byte) (d : Word), wordBytes (op ++ a ++ d) = op :: a :: be8 d) ∧
  (∀ q : Response, wordBytes q.word = q.st.code :: q.n :: be8 q.r)

/-- R65 and R66: a command word is refused with IllegalCommand, with no other effect, exactly when its opcode is
reserved, an operand bit its command does not use is 1, its time selector is 3, its clock operand is not 0, or its
register number is not in Table R. 235 opcodes are reserved, 238 without the encoder. -/
def Obligations.IllegalWordsAreRefusedAndOnlyThey : Prop :=
  (∀ (op a : Byte) (d : Word) (s : State),
    (wordLegal s.params.hasEnc op a d = false → step (offer op a d s) = .next (refuse .illegalCommand s)) ∧
    (wordLegal s.params.hasEnc op a d = true →
      ∃ t, step (offer op a d s) = .next t ∧ t.lastStatus ≠ some .illegalCommand)) ∧
  ((List.range 256).countP fun k => reservedOpcode true (BitVec.ofNat 8 k)) = 235 ∧
  ((List.range 256).countP fun k => reservedOpcode false (BitVec.ofNat 8 k)) = 238

/-- R61: every command word, legal or not, in every state, is answered by one response word; with a status other than
OK (which is 0, and no other status is) its `n` and `r` are 0; the three fields stand at their bits; and the status codes
are the eight numbers of Table E (R74), so none is reserved. The last clause, that every step of every state gives a next
state, also with nothing presented and at the reset input, is the model's reading and not R61's (log entries 2, 18, 19). -/
def Obligations.EveryCommandIsAnswered : Prop :=
  (∀ (op a : Byte) (d : Word) (s : State), ∃ t q, step (offer op a d s) = .next t ∧ t.resp = some q ∧
    (q.st ≠ .ok → q.n = 0#8 ∧ q.r = 0#64)) ∧
  (∀ q : Response, q.word.extractLsb' 72 8 = q.st.code ∧ q.word.extractLsb' 64 8 = q.n ∧
    q.word.extractLsb' 0 64 = q.r) ∧
  (∀ st : Status, st.code = 0#8 ↔ st = .ok) ∧
  (Status.ok.code.toNat = 0 ∧ Status.invalidEncoding.code.toNat = 1 ∧ Status.invalidConfiguration.code.toNat = 2 ∧
    Status.illegalCommand.code.toNat = 3 ∧ Status.wrongPhase.code.toNat = 4 ∧ Status.keyOverflow.code.toNat = 5 ∧
    Status.bufferOverflow.code.toNat = 6 ∧ Status.badDigest.code.toNat = 7 ∧ ∀ st : Status, st.code.toNat ≤ 7) ∧
  (∀ s : State, ∃ t, step s = .next t)

/-! ## Construction, configuration, register read -/

/-- R171: `INIT`, in every phase, puts every register at its "after INIT" value of Table Z; `PERR` and the encoder keep
theirs. -/
def Obligations.InitBeginsANewConstruction : Prop :=
  (∀ (a : Byte) (d : Word) (s : State), step (offer 0x01#8 a d s) =
    .next (if a.toNat ≠ 0 ∨ d.toNat ≠ 0 then refuse .illegalCommand s else answer 0#8 0#64 (afterInit s))) ∧
  (∀ s : State, exec .init s = .next (answer 0#8 0#64 (afterInit s)))

/-- R172: `COMMIT` drops the trailing bits, makes the block READY and answers `KLEN` (one that 64
bits cannot hold shows the model's free value, log entry 11). -/
def Obligations.CommitEndsTheConstruction : Prop :=
  (∀ (a : Byte) (d : Word) (s : State), step (offer 0x02#8 a d s) =
    .next (if a.toNat ≠ 0 ∨ d.toNat ≠ 0 then refuse .illegalCommand s
      else if s.phase ≠ .build then refuse .wrongPhase s
      else commitEffect s)) ∧
  (∀ s : State, s.phase = .build → exec .commit s = .next (commitEffect s))

/-- `RD k` answers the value column of Table R and changes no register (R176); while no code is latched `OFFSET`, `P31`,
`CODEVAL` and `CODE` read as zeros, `CODE` with `n` = 0, whatever the latches still hold (U14 of
93_implementation_defined.md with R24, R25; that it governs the general text of R176, and that `CODEN` still reads as its
register, is the model's reading, log entry 24); a number outside Table R, and 17 without
the encoder, is refused. A length register below 2^64 is answered as its number; a longer one, which only an unbounded
buffer could reach, shows the model's free value (log entry 11). -/
def Obligations.RdAnswersTableR : Prop :=
  (∀ (a : Byte) (d : Word) (s : State), step (offer 0x03#8 a d s) =
    .next (if d.toNat ≠ 0 then refuse .illegalCommand s
      else if 17 < a.toNat ∨ (a.toNat = 17 ∧ s.params.hasEnc = false) then refuse .illegalCommand s
      else readAnswer a.toNat s)) ∧
  (∀ (k : Reg) (s : State), (k = .enb → s.params.hasEnc = true) →
    exec (.rd k) s = .next (readAnswer k.num.toNat s)) ∧
  (∀ s : State, s.codev = false →
    exec (.rd .offset) s = .next (answer 0#8 0#64 s) ∧ exec (.rd .p31) s = .next (answer 0#8 0#64 s) ∧
    exec (.rd .codeval) s = .next (answer 0#8 0#64 s) ∧ exec (.rd .code) s = .next (answer 0#8 0#64 s)) ∧
  (∀ len : Nat, len < 2 ^ 64 → (lengthShown len).toNat = len ∧ (lengthWord len).toNat = len)

/-- R173, R174, R175: each `CFG` command checks its value in its own step, writes its register, and fails the
construction on an illegal value without writing it. -/
def Obligations.ConfigurationIsCheckedAndWritten : Prop :=
  (∀ (a : Byte) (d : Word) (s : State), step (offer 0x10#8 a d s) =
    .next (if a.toNat ≠ 0 then refuse .illegalCommand s
      else if s.phase ≠ .build then refuse .wrongPhase s else cfgDigitsEffect d s)) ∧
  (∀ (a : Byte) (d : Word) (s : State), step (offer 0x11#8 a d s) =
    .next (if a.toNat ≠ 0 then refuse .illegalCommand s
      else if s.phase ≠ .build then refuse .wrongPhase s else cfgPeriodEffect d s)) ∧
  (∀ (a : Byte) (d : Word) (s : State), step (offer 0x12#8 a d s) =
    .next (if a.toNat ≠ 0 then refuse .illegalCommand s
      else if s.phase ≠ .build then refuse .wrongPhase s else cfgAlgEffect d s)) ∧
  (∀ (v : Word) (s : State), s.phase = .build →
    exec (.cfgDigits v) s = .next (cfgDigitsEffect v s) ∧
    exec (.cfgPeriod v) s = .next (cfgPeriodEffect v s) ∧
    exec (.cfgAlg v) s = .next (cfgAlgEffect v s))

/-- R177, Table A: a command is refused with WrongPhase, changing nothing but `PERR`, exactly where its cell is WP. The
check comes after that of the reserved bits (an illegal word is IllegalCommand in every phase) and before every operand
check (a WP cell refuses whatever the operand). -/
def Obligations.PhasesAcceptTableA : Prop :=
  (∀ (i : Instr) (s : State), i.wellFormed s.params.hasEnc = true →
    (tableA i.op s.phase = false → exec i s = .next (refuse .wrongPhase s)) ∧
    (tableA i.op s.phase = true → ∃ t, exec i s = .next t ∧ t.lastStatus ≠ some .wrongPhase)) ∧
  (∀ (op a : Byte) (d : Word) (s : State),
    (wordLegal s.params.hasEnc op a d = false → step (offer op a d s) = .next (refuse .illegalCommand s)) ∧
    (∀ o, tableO op = some o → wordLegal s.params.hasEnc op a d = true → tableA o s.phase = false →
      step (offer op a d s) = .next (refuse .wrongPhase s)) ∧
    (∀ o, tableO op = some o → wordLegal s.params.hasEnc op a d = true → tableA o s.phase = true →
      ∃ t, step (offer op a d s) = .next t ∧ t.lastStatus ≠ some .wrongPhase))

/-! ## The codec -/

/-- R91, R94: `B32.PUSH` skips, fails or accumulates by the class of the character; a full byte leaves for the key, or
fails the construction when the key buffer is full. -/
def Obligations.B32PushDecodesOneCharacter : Prop :=
  (∀ (a : Byte) (d : Word) (s : State), step (offer 0x20#8 a d s) =
    .next (if a.toNat ≠ 0 ∨ 256 ≤ d.toNat then refuse .illegalCommand s
      else if s.phase ≠ .build then refuse .wrongPhase s
      else b32PushEffect (d.setWidth 8) d s)) ∧
  (∀ (c : Byte) (s : State), s.phase = .build → exec (.b32Push c) s = .next (b32PushEffect c (c.setWidth 64) s))

/-- R69, R70: the six cases of `cls`, the first that applies winning; the symbols of Table A32 have their positions as
values, in both cases of a letter, under every legal whitespace set; which whitespace sets are legal; and with the default
set the invalid characters are the ones R93 lists. -/
def Obligations.AlphabetIsTableA32 : Prop :=
  (∀ v : BitVec 5, symChar v = symbol v.toNat) ∧
  (∀ (p : Params) (v : BitVec 5), p.wsLegal = true → cls p.ws (symbol v.toNat) = .sym v) ∧
  (∀ (p : Params) (v : BitVec 5), p.wsLegal = true → v.toNat < 26 →
    cls p.ws (symbol v.toNat + 0x20#8) = .sym v) ∧
  (∀ (ws : List Byte) (c : Byte), cls ws c =
    if c ∈ ws then .skip
    else if c.toNat = 0x3D then .skip
    else if 0x41 ≤ c.toNat ∧ c.toNat ≤ 0x5A then .sym (BitVec.ofNat 5 (c.toNat - 0x41))
    else if 0x61 ≤ c.toNat ∧ c.toNat ≤ 0x7A then .sym (BitVec.ofNat 5 (c.toNat - 0x61))
    else if 0x32 ≤ c.toNat ∧ c.toNat ≤ 0x37 then .sym (BitVec.ofNat 5 (c.toNat - 0x32 + 26))
    else .invalid) ∧
  (∀ p : Params, p.wsLegal = true ↔ ∀ c ∈ p.ws, c.toNat ≠ 0x3D ∧ ¬ (0x41 ≤ c.toNat ∧ c.toNat ≤ 0x5A) ∧
    ¬ (0x61 ≤ c.toNat ∧ c.toNat ≤ 0x7A) ∧ ¬ (0x32 ≤ c.toNat ∧ c.toNat ≤ 0x37)) ∧
  (∀ c : Byte, cls Params.default.ws c = .invalid ↔
    (c.toNat ≤ 0x08 ∨ (0x0E ≤ c.toNat ∧ c.toNat ≤ 0x1F) ∨ (0x21 ≤ c.toNat ∧ c.toNat ≤ 0x31) ∨
      (0x38 ≤ c.toNat ∧ c.toNat ≤ 0x3C) ∨ (0x3E ≤ c.toNat ∧ c.toNat ≤ 0x40) ∨
      (0x5B ≤ c.toNat ∧ c.toNat ≤ 0x60) ∨ 0x7B ≤ c.toNat))

/-- R111, R112, R113: the encoder's three commands, in every phase; reserved without the encoder (R66). The state of
R112 keeps `ENB` at most 4 (R22). -/
def Obligations.EncoderEmitsFiveBitGroups : Prop :=
  (∀ (a : Byte) (d : Word) (s : State), step (offer 0x28#8 a d s) =
    .next (if s.params.hasEnc = false ∨ a.toNat ≠ 0 ∨ d.toNat ≠ 0 then refuse .illegalCommand s
      else answer 0#8 0#64 { s with eacc := 0#12, enb := 0#4 })) ∧
  (∀ (a : Byte) (d : Word) (s : State), s.enb.toNat ≤ 4 → step (offer 0x29#8 a d s) =
    .next (if s.params.hasEnc = false ∨ a.toNat ≠ 0 ∨ 256 ≤ d.toNat then refuse .illegalCommand s
      else encPushEffect (d.setWidth 8) s)) ∧
  (∀ (a : Byte) (d : Word) (s : State), step (offer 0x2A#8 a d s) =
    .next (if s.params.hasEnc = false ∨ a.toNat ≠ 0 ∨ d.toNat ≠ 0 then refuse .illegalCommand s
      else encEndEffect s)) ∧
  (∀ (b : Byte) (s : State), s.params.hasEnc = true →
    exec .encClr s = .next (answer 0#8 0#64 { s with eacc := 0#12, enb := 0#4 }) ∧
    (s.enb.toNat ≤ 4 → exec (.encPush b) s = .next (encPushEffect b s)) ∧
    exec .encEnd s = .next (encEndEffect s))

/-- R110: the encoder is independent of the instance. Its commands write no register but `EACC` and `ENB` (and `PERR` on
a refusal), and no other command, `INIT` included, writes `EACC` or `ENB` or gives another answer for their contents
(but for `RD ENB`). What they answer and leave in `EACC` and `ENB` depends on nothing else, so they are accepted in every
phase; and the four symbols R110 names. -/
def Obligations.EncoderIsIndependentOfTheInstance : Prop :=
  (∀ (i : Instr) (s t : State), i.op = .encClr ∨ i.op = .encPush ∨ i.op = .encEnd → exec i s = .next t →
    t = { s with eacc := t.eacc, enb := t.enb, perr := t.perr, resp := t.resp, reqs := t.reqs }) ∧
  (∀ (i : Instr) (s t : State), i.op ≠ .encClr → i.op ≠ .encPush → i.op ≠ .encEnd → exec i s = .next t →
    t.eacc = s.eacc ∧ t.enb = s.enb ∧
    (i ≠ .rd .enb → ∀ (e : BitVec 12) (n : BitVec 4),
      exec i { s with eacc := e, enb := n } = .next { t with eacc := e, enb := n })) ∧
  (∀ (i : Instr) (s s' : State), i.op = .encClr ∨ i.op = .encPush ∨ i.op = .encEnd → s.params.hasEnc = true →
    s'.params.hasEnc = true → s.eacc = s'.eacc → s.enb = s'.enb →
    ∃ t t', exec i s = .next t ∧ exec i s' = .next t' ∧ t.resp = t'.resp ∧ t.eacc = t'.eacc ∧ t.enb = t'.enb ∧
      t.lastStatus = some .ok ∧ t.perr = s.perr) ∧
  symbol 0 = 0x41#8 ∧ symbol 25 = 0x5A#8 ∧ symbol 26 = 0x32#8 ∧ symbol 31 = 0x37#8

/-- R95 and R99: the characters of a text pushed into a fresh decoder leave the first `(5k) div 8` whole bytes of the
bit string of the text's `k` symbols in `KEY`, and count the `(5k) mod 8` bits over; `COMMIT` makes that the key. If
some character is invalid, the first such character fails the construction. -/
def Obligations.DecoderGivesWholeBytesOfTheText : Prop :=
  (∀ (s : State) (text : List Byte), decoderFresh s → (∀ c ∈ text, cls s.params.ws c ≠ .invalid) →
    keyRoom s (5 * (symbolsOf s.params.ws text).length / 8) →
    ∃ t u, performAll (text.map .b32Push) s = .next t ∧
      t.phase = .build ∧
      t.key.length = 5 * (symbolsOf s.params.ws text).length / 8 ∧
      t.nb.toNat = 5 * (symbolsOf s.params.ws text).length % 8 ∧
      t.key.flatMap bitsOf =
        ((symbolsOf s.params.ws text).flatMap bitsOf).take (8 * (5 * (symbolsOf s.params.ws text).length / 8)) ∧
      exec .commit t = .next u ∧ u.key = t.key ∧ u.phase = .ready ∧ u.acc = 0#12 ∧ u.nb = 0#4) ∧
  (∀ (s : State) (before after : List Byte) (c : Byte), decoderFresh s →
    (∀ b ∈ before, cls s.params.ws b ≠ .invalid) → keyRoom s (5 * (symbolsOf s.params.ws before).length / 8) →
    cls s.params.ws c = .invalid →
    ∃ t, performAll ((before ++ c :: after).map .b32Push) s = .next t ∧
      t.phase = .failed ∧ t.err = 1#8 ∧ t.errop = 0x20#8 ∧ t.errd = c.setWidth 64 ∧ t.key = [])

/-- R96: a symbol that would emit a byte when the key buffer is full fails the construction with KeyOverflow, and with no
`KMAX` that never happens. From the start of a text it is the first symbol whose byte lies beyond `KMAX`; with `KMAX` = 64
that is the 104th. -/
def Obligations.FullKeyBufferFailsTheConstruction : Prop :=
  (∀ (s : State) (text : List Byte) (c : Byte) (m : Nat), decoderFresh s → s.params.kmax = some m →
    (∀ b ∈ text ++ [c], ∃ v, cls s.params.ws b = .sym v) →
    5 * text.length / 8 ≤ m → m < 5 * (text.length + 1) / 8 →
    ∃ t, performAll ((text ++ [c]).map .b32Push) s = .next t ∧
      t.phase = .failed ∧ t.err = 5#8 ∧ t.errop = 0x20#8 ∧ t.errd = c.setWidth 64 ∧ t.key = [] ∧
      t.resp = some ⟨.keyOverflow, 0#8, 0#64⟩) ∧
  (∀ (s : State) (c : Byte) (v : BitVec 5), s.phase = .build → cls s.params.ws c = .sym v → 8 ≤ s.nb.toNat + 5 →
    s.params.kmax = some s.key.length →
    exec (.b32Push c) s = .next (failWith .keyOverflow 5#8 0x20#8 (c.setWidth 64) s)) ∧
  (∀ (s : State) (c : Byte), s.params.kmax = none →
    ∃ t, exec (.b32Push c) s = .next t ∧ t.lastStatus ≠ some .keyOverflow) ∧
  (5 * 102 / 8 = 63 ∧ 5 * 102 % 8 = 6 ∧ 5 * 103 / 8 = 64 ∧ 5 * 103 % 8 = 3 ∧ 5 * 104 / 8 = 65)

/-- R114: the characters the encoder answers for `j` bytes are `ceil(8j / 5)` symbols of Table A32, capital letters or
digits 2 to 7, whose values spell the bits of the bytes and then the filling zero bits; before the end `ENB` is `8j mod 5`. -/
def Obligations.EncoderSpellsTheBitsOfTheBytes : Prop :=
  ∀ (s : State) (x : List Byte), s.params.hasEnc = true →
    (b32Encode s x).length = (8 * x.length + 4) / 5 ∧
    ∃ vs : List (BitVec 5), b32Encode s x = vs.map (fun v => symbol v.toNat) ∧
      vs.flatMap bitsOf =
        x.flatMap bitsOf ++ List.replicate ((5 - 8 * x.length % 5) % 5) false ∧
      (∀ c ∈ b32Encode s x, (0x41 ≤ c.toNat ∧ c.toNat ≤ 0x5A) ∨ (0x32 ≤ c.toNat ∧ c.toNat ≤ 0x37)) ∧
      ∃ t, performAll (.encClr :: x.map .encPush) s = .next t ∧ t.enb.toNat = 8 * x.length % 5

/-- R101, R115: decoding what the encoder answers for a byte sequence that fits the key buffer gives the byte sequence
back as the key. The length answered is that number below 2^64 and the model's free value above it (log entry 11). -/
def Obligations.DecodeOfEncodedBytesIsTheBytes : Prop :=
  ∀ (s : State) (x : List Byte), decoderFresh s → s.params.hasEnc = true → s.params.wsLegal = true →
    keyRoom s x.length →
    ∃ t u, performAll ((b32Encode s x).map .b32Push) s = .next t ∧ exec .commit t = .next u ∧
      u.key = x ∧ u.phase = .ready ∧ u.resp = some ⟨.ok, 0#8, lengthShown x.length⟩

/-- R170, R179 and the `construct` of R77: from every state, with legal configuration values or none and a text without
invalid characters that fits the key buffer, the construction ends OK in READY with the configuration given (digits 6,
period 30, SHA1 where none is given), the key `b32_decode` of the text in the closed form of R99, an empty decoder, no
error, and `PERR` as it was. The length answered is that number below 2^64 and the model's free value above it (log
entry 11). -/
def Obligations.ConstructBuildsTheInstance : Prop :=
  ∀ (s : State) (text : List Byte) (digits period alg : Option Word),
    (∀ c ∈ text, cls s.params.ws c ≠ .invalid) →
    keyRoom s (5 * (symbolsOf s.params.ws text).length / 8) →
    (∀ v, digits = some v → v.toNat = 6 ∨ v.toNat = 7 ∨ v.toNat = 8) → (∀ v, period = some v → v.toNat ≠ 0) →
    (∀ v, alg = some v → v.toNat ≤ 2) →
    ∃ t, execPseudo (.construct text digits period alg) s = .next t ∧
      t.resp = some ⟨.ok, 0#8, lengthShown t.key.length⟩ ∧ t.phase = .ready ∧
      t.digits.toNat = (match digits with | some v => v.toNat | none => 6) ∧
      t.period.toNat = (match period with | some v => v.toNat | none => 30) ∧
      (algCode t.alg).toNat = (match alg with | some v => v.toNat | none => 0) ∧
      t.key.length = 5 * (symbolsOf s.params.ws text).length / 8 ∧
      t.key.flatMap bitsOf =
        ((symbolsOf s.params.ws text).flatMap bitsOf).take (8 * (5 * (symbolsOf s.params.ws text).length / 8)) ∧
      t.acc = 0#12 ∧ t.nb = 0#4 ∧ t.err = 0#8 ∧ t.perr = s.perr

/-! ## The truncation engine -/

/-- R121, R122: `DGST.CLR` empties the digest and wipes the latches; `DGST.PUSH` appends a byte, or is refused at 64
bytes and sets `DGSTOVF`. The length answered is `DLEN`; outside `Inv` one that 64 bits cannot hold shows the model's free
value (log entry 11). -/
def Obligations.DigestIsStagedByteByByte : Prop :=
  (∀ (a : Byte) (d : Word) (s : State), step (offer 0x30#8 a d s) =
    .next (if a.toNat ≠ 0 ∨ d.toNat ≠ 0 then refuse .illegalCommand s
      else if s.phase = .failed then refuse .wrongPhase s else dgstClrEffect s)) ∧
  (∀ (a : Byte) (d : Word) (s : State), step (offer 0x31#8 a d s) =
    .next (if a.toNat ≠ 0 ∨ 256 ≤ d.toNat then refuse .illegalCommand s
      else if s.phase = .failed then refuse .wrongPhase s else dgstPushEffect (d.setWidth 8) s)) ∧
  (∀ (b : Byte) (s : State), s.phase ≠ .failed →
    exec .dgstClr s = .next (dgstClrEffect s) ∧ exec (.dgstPush b) s = .next (dgstPushEffect b s))

/-- R126: `HOTP.TRUNC` truncates the staged digest, latches the result and answers the code; it is refused with BadDigest
exactly when the digest overflowed, is empty, or lacks one of the four bytes. -/
def Obligations.HotpTruncTruncatesTheStagedDigest : Prop :=
  (∀ (a : Byte) (d : Word) (s : State), step (offer 0x32#8 a d s) =
    .next (if a.toNat ≠ 0 ∨ d.toNat ≠ 0 then refuse .illegalCommand s
      else if s.phase = .failed then refuse .wrongPhase s
      else if badDigest s then refuse .badDigest s else hotpTruncEffect s)) ∧
  (∀ s : State, s.phase ≠ .failed → ¬ badDigest s → exec .hotpTrunc s = .next (hotpTruncEffect s))

/-- R128: `HOTP.COMPUTE c` asks the keyed hash once, for `be8(c)` under the key, truncates, latches and answers. -/
def Obligations.HotpComputeGivesTheCodeOfTheCounter : Prop :=
  (∀ (a : Byte) (d : Word) (s : State), step (offer 0x33#8 a d s) =
    .next (if a.toNat ≠ 0 then refuse .illegalCommand s
      else if s.phase ≠ .ready then refuse .wrongPhase s else computeEffect d.toNat s)) ∧
  (∀ (c : Word) (s : State), s.phase = .ready → exec (.hotpCompute c) s = .next (computeEffect c.toNat s))

/-- R123: the four results of `dt` in exact arithmetic, for every digest whose four bytes exist and every legal digit
count. -/
def Obligations.DynamicTruncationIsExact : Prop :=
  ∀ (g : List Byte) (dg : Nat), 1 ≤ g.length → dtOffset g + 4 ≤ g.length → dg = 6 ∨ dg = 7 ∨ dg = 8 →
    (dt g dg).off.toNat = dtOffset g ∧ (dt g dg).p31.toNat = dtP31 g ∧
    (dt g dg).val.toNat = dtP31 g % 10 ^ dg ∧ (dt g dg).code = render (dtP31 g % 10 ^ dg) dg

/-- R124, R42 (a): the counter is serialised into 8 bytes whose big-endian number is the counter, whatever the counter;
the examples of R124. -/
def Obligations.CounterIsSerialisedBigEndian : Prop :=
  (∀ c : Word, (be8 c).length = 8 ∧ be (be8 c) = c.toNat ∧
    ∀ j, j < 8 → (be8 c).getD j 0#8 = c.extractLsb' (56 - 8 * j) 8) ∧
  be8 1#64 = [0#8, 0#8, 0#8, 0#8, 0#8, 0#8, 0#8, 1#8] ∧
  be8 0xFFFFFFFFFFFFFFFF#64 = List.replicate 8 0xFF#8 ∧
  be8 0x0000000100000000#64 = [0#8, 0#8, 0#8, 1#8, 0#8, 0#8, 0#8, 0#8]

/-- R73, R132: a rendered value is exactly `dg` ASCII digits, and they are the value's decimal digits, most significant
first, padded with zeros; 42 with 6 digits is "000042". -/
def Obligations.RenderedCodeIsTheDecimalNumber : Prop :=
  (∀ v dg : Nat, v < 10 ^ dg → (render v dg).length = dg ∧
    (∀ c ∈ render v dg, 0x30 ≤ c.toNat ∧ c.toNat ≤ 0x39) ∧
    (render v dg).foldl (fun n c => 10 * n + (c.toNat - 0x30)) 0 = v) ∧
  render 42 6 = [0x30#8, 0x30#8, 0x30#8, 0x30#8, 0x34#8, 0x32#8]

/-- `p31` is below 2^31, the value below `10^dg`, and the code of fewer digits is the end of the code of more digits of the
same digest (R129). The exact `p31` is the one `dt` gives wherever the four bytes exist. For digit counts other than 6, 7, 8
and for digests without the four bytes the spec leaves `dt` undefined (R123, R130): there the statement is about the
model's total `dt` and is the model's own (log entry 12). -/
def Obligations.ShorterCodeIsTheEndOfTheLonger : Prop :=
  ∀ (g : List Byte) (dg1 dg2 : Nat), dg1 < dg2 → dg2 ≤ 8 →
    dtP31 g < 2 ^ 31 ∧
    (1 ≤ g.length → dtOffset g + 4 ≤ g.length →
      (dt g dg1).p31.toNat = dtP31 g ∧ (dt g dg2).p31.toNat = dtP31 g) ∧
    (dt g dg2).val.toNat < 10 ^ dg2 ∧
    (dt g dg1).val.toNat = (dt g dg2).val.toNat % 10 ^ dg1 ∧
    (dt g dg1).code = (dt g dg2).code.drop (dg2 - dg1)

/-- R62: a string of up to 8 bytes is packed with byte `j` at bits `63-8j` to `56-8j` and zeros below it; "287082" gives
0x3238373038320000. -/
def Obligations.StringsArePackedFirstByteHighest : Prop :=
  (∀ bs : List Byte, bs.length ≤ 8 → ∀ j, j < 8 →
    (packString bs).extractLsb' (56 - 8 * j) 8 = bs.getD j 0#8) ∧
  packString [0x32#8, 0x38#8, 0x37#8, 0x30#8, 0x38#8, 0x32#8] = 0x3238373038320000#64

/-! ## The counter and the window comparator -/

/-- R143, R145: `TOTP.CTR` answers `T div PERIOD` and `TOTP.REM` answers `PERIOD - (T mod PERIOD)`; no register is
written. -/
def Obligations.TimeQueriesAnswerCounterAndRemainder : Prop :=
  (∀ (a : Byte) (d : Word) (s : State), step (offer 0x40#8 a d s) =
    .next (if timeWordBad a d then refuse .illegalCommand s
      else if s.phase ≠ .ready then refuse .wrongPhase s else ctrEffect (secondsOfWord a d s) s)) ∧
  (∀ (a : Byte) (d : Word) (s : State), step (offer 0x41#8 a d s) =
    .next (if timeWordBad a d then refuse .illegalCommand s
      else if s.phase ≠ .ready then refuse .wrongPhase s else remEffect (secondsOfWord a d s) s)) ∧
  (∀ (x : TimeArg) (s : State), s.phase = .ready →
    exec (.totpCtr x) s = .next (ctrEffect (secondsOf x s) s) ∧
    exec (.totpRem x) s = .next (remEffect (secondsOf x s) s))

/-- R146: `TOTP.GEN` is `HOTP.COMPUTE` at the counter of the time. -/
def Obligations.TotpGenGivesTheCodeOfTheTime : Prop :=
  (∀ (a : Byte) (d : Word) (s : State), step (offer 0x42#8 a d s) =
    .next (if timeWordBad a d then refuse .illegalCommand s
      else if s.phase ≠ .ready then refuse .wrongPhase s
      else computeEffect (secondsOfWord a d s / s.period.toNat) s)) ∧
  (∀ (x : TimeArg) (s : State), s.phase = .ready →
    exec (.totpGen x) s = .next (computeEffect (secondsOf x s / s.period.toNat) s))

/-- R154, R156: `TOTP.VERIFY` is the loop over the indices `-WINDOW` to `WINDOW` as the pseudocode writes it, with the
indices outside the 64-bit range skipped and the first match ending it; it makes the loop's requests and writes no
register. -/
def Obligations.TotpVerifyIsTheWindowLoop : Prop :=
  (∀ (a : Byte) (d : Word) (s : State), step (offer 0x43#8 a d s) =
    .next (if timeWordBad a d then refuse .illegalCommand s
      else if s.phase ≠ .ready then refuse .wrongPhase s
      else if s.candovf = true then refuse .bufferOverflow s
      else verifyEffect (secondsOfWord a d s) s)) ∧
  (∀ (x : TimeArg) (s : State), s.phase = .ready → s.candovf = false →
    exec (.totpVerify x) s = .next (verifyEffect (secondsOf x s) s))

/-- R152: the result is 1 exactly when some counter from `max(0, now - w)` to `min(2^64-1, now + w)` has the trimmed
candidate as its code, and 0 otherwise. -/
def Obligations.VerifyAcceptsExactlyTheWindow : Prop :=
  ∀ (x : TimeArg) (s : State), s.phase = .ready → s.candovf = false →
    let now := secondsOf x s / s.period.toNat
    ∃ t r, exec (.totpVerify x) s = .next t ∧ t.resp = some ⟨.ok, 0#8, r⟩ ∧ (r = 0#64 ∨ r = 1#64) ∧
      (r = 1#64 ↔ ∃ c : Nat, now - s.window.toNat ≤ c ∧ c ≤ now + s.window.toNat ∧ c < 2 ^ 64 ∧
        codeAt s c = trim s.params.ws s.cand)

/-- R155: the requests of one `TOTP.VERIFY` are for the counters of the window in ascending order, ending with the first
match, or for all of them if none matches; at least 1 and at most `2*WINDOW + 1`. -/
def Obligations.VerifyRequestsAscendToTheFirstMatch : Prop :=
  ∀ (x : TimeArg) (s t : State), s.phase = .ready → s.candovf = false → exec (.totpVerify x) s = .next t →
    let now := secondsOf x s / s.period.toNat
    let low := now - s.window.toNat
    let high := min (2 ^ 64 - 1) (now + s.window.toNat)
    let hit := fun c => codeAt s c = trim s.params.ws s.cand
    1 ≤ t.reqs.length ∧ t.reqs.length ≤ 2 * s.window.toNat + 1 ∧
    ((∀ c, low ≤ c → c ≤ high → ¬ hit c) →
      t.reqs = (List.range' low (high - low + 1)).map (requestAt s)) ∧
    (∀ c, low ≤ c → c ≤ high → hit c → (∀ b, low ≤ b → b < c → ¬ hit b) →
      t.reqs = (List.range' low (c - low + 1)).map (requestAt s))

/-- R147, R148, R149: `TOTP.WIN` takes every window; `CAND.CLR` empties the candidate and its overflow flag; `CAND.PUSH`
appends any byte, or is refused when the buffer is full and sets `CANDOVF`. The length answered is `CLEN`; one that 64 bits
cannot hold shows the model's free value (log entry 11). -/
def Obligations.WindowAndCandidateAreStaged : Prop :=
  (∀ (a : Byte) (d : Word) (s : State), step (offer 0x44#8 a d s) =
    .next (if a.toNat ≠ 0 then refuse .illegalCommand s
      else if s.phase = .failed then refuse .wrongPhase s else answer 0#8 0#64 { s with window := d })) ∧
  (∀ (a : Byte) (d : Word) (s : State), step (offer 0x45#8 a d s) =
    .next (if a.toNat ≠ 0 ∨ d.toNat ≠ 0 then refuse .illegalCommand s
      else if s.phase = .failed then refuse .wrongPhase s
      else answer 0#8 0#64 { s with cand := [], candovf := false })) ∧
  (∀ (a : Byte) (d : Word) (s : State), step (offer 0x46#8 a d s) =
    .next (if a.toNat ≠ 0 ∨ 256 ≤ d.toNat then refuse .illegalCommand s
      else if s.phase = .failed then refuse .wrongPhase s else candPushEffect (d.setWidth 8) s)) ∧
  (∀ (w : Word) (c : Byte) (s : State), s.phase ≠ .failed →
    exec (.totpWin w) s = .next (answer 0#8 0#64 { s with window := w }) ∧
    exec .candClr s = .next (answer 0#8 0#64 { s with cand := [], candovf := false }) ∧
    exec (.candPush c) s = .next (candPushEffect c s))

/-- R142: for a millisecond time the counter answered is the exact division by 1000 times the period. -/
def Obligations.MillisecondDivisionsCompose : Prop :=
  ∀ (s : State) (d : Word), s.phase = .ready →
    resultOf (.totpCtr (.ms d)) s = d.toNat / (1000 * s.period.toNat) ∧
    resultOf (.totpCtr .clock) s = s.nowMs.toNat / (1000 * s.period.toNat) ∧
    resultOf (.totpCtr (.sec d)) s = d.toNat / s.period.toNat ∧ d.toNat / s.period.toNat ≤ d.toNat

/-- R144: the time remaining is from 1 to `PERIOD`, is `PERIOD` at a multiple of the period, and `T` plus it is the first
time whose counter is larger. -/
def Obligations.TimeRemainingReachesTheNextCounter : Prop :=
  ∀ (s : State) (d : Word), s.phase = .ready → s.period ≠ 0#64 →
    let T := d.toNat
    let rem := resultOf (.totpRem (.sec d)) s
    1 ≤ rem ∧ rem ≤ s.period.toNat ∧ (T % s.period.toNat = 0 → rem = s.period.toNat) ∧
    (∀ U, T ≤ U → U < T + rem → counterAt s.period U = counterAt s.period T) ∧
    counterAt s.period (T + rem) = counterAt s.period T + 1

/-- R160: the counter grows by exactly 1 when time crosses a multiple of the period and not otherwise; the time remaining
falls by 1 and wraps to `PERIOD`. -/
def Obligations.CounterStepsAtPeriodBoundaries : Prop :=
  ∀ (s : State) (T : Nat), s.phase = .ready → s.period ≠ 0#64 → T + 1 < 2 ^ 64 →
    let ctr := fun x => resultOf (.totpCtr (.sec (BitVec.ofNat 64 x))) s
    let rem := fun x => resultOf (.totpRem (.sec (BitVec.ofNat 64 x))) s
    ((T + 1) % s.period.toNat = 0 → ctr (T + 1) = ctr T + 1) ∧
    ((T + 1) % s.period.toNat ≠ 0 → ctr (T + 1) = ctr T) ∧
    (1 < rem T → rem (T + 1) = rem T - 1) ∧
    (rem T = 1 → rem (T + 1) = s.period.toNat)

/-- R158, first half: the code `TOTP.GEN` answers, loaded as the candidate, verifies at the same time with every window.
The premise on `WS` is needed because a whitespace digit would be trimmed off (log entry 17). -/
def Obligations.GeneratedCodeVerifies : Prop :=
  ∀ (s g : State) (x : TimeArg) (w : Word), Inv s → s.phase = .ready → s.params.wsNoDigit = true →
    exec (.totpGen x) s = .next g →
    ∃ t, exec (.totpVerify x) { g with cand := answerChars g, candovf := false, window := w } = .next t ∧
      t.resp = some ⟨.ok, 0#8, 1#64⟩

/-- R157: a candidate that is not, after trimming, exactly `DIGITS` ASCII digits is answered OK with 0, whatever the time
and the window. -/
def Obligations.MalformedCandidateNeverMatches : Prop :=
  ∀ (x : TimeArg) (s : State), s.phase = .ready → s.candovf = false →
    ((trim s.params.ws s.cand).length ≠ s.digits.toNat ∨
      ∃ c ∈ trim s.params.ws s.cand, c.toNat < 0x30 ∨ 0x39 < c.toNat) →
    ∃ t, exec (.totpVerify x) s = .next t ∧ t.resp = some ⟨.ok, 0#8, 0#64⟩

/-- R150: trimming removes the longest run of `WS` bytes at the front and, of what is left, the longest at the end, and
nothing else. -/
def Obligations.TrimRemovesWhitespaceAtBothEnds : Prop :=
  ∀ ws bs : List Byte, ∃ front back : List Byte,
    bs = front ++ trim ws bs ++ back ∧ (∀ c ∈ front, c ∈ ws) ∧ (∀ c ∈ back, c ∈ ws) ∧
    (∀ c, (trim ws bs).head? = some c → c ∉ ws) ∧ (∀ c, (trim ws bs).getLast? = some c → c ∉ ws)

/-! ## Errors and whole-machine rules -/

/-- R191, R194: the status of every command word in every state is that of the first failing check, in the fixed order
opcode, operand bits, register number, phase, own checks, with the causes of Table X. -/
def Obligations.StatusIsTheFirstFailingCheck : Prop :=
  ∀ (op a : Byte) (d : Word) (s : State), ∃ t, step (offer op a d s) = .next t ∧
    t.lastStatus = some (verdict op a d s)

/-- R192, R193, R206: errors are precise. A fatal status leaves exactly the record of R192 and comes only from BUILD; a
refusal leaves exactly `PERR` and, for a full buffer, that buffer's flag. -/
def Obligations.ErrorsArePrecise : Prop :=
  ∀ (op a : Byte) (d : Word) (s t : State) (st : Status), step (offer op a d s) = .next t → t.lastStatus = some st →
    (isFatal st = true → s.phase = .build ∧ t = failWith st st.code op d s) ∧
    (isRefusal st = true → t = refuse st
      { s with
        candovf := s.candovf || (st == .bufferOverflow && op == 0x46#8)
        dgstovf := s.dgstovf || (st == .bufferOverflow && op == 0x31#8) })

/-- R15, R197: no fatal error in READY or FAILED; the three error registers are written only by a fatal error (the code 1,
2 or 5, the opcode, the operand as sent), and cleared by `INIT` and reset; a refusal, in any phase, only sets flags. -/
def Obligations.ErrorRegistersAreWrittenOnlyByFatalErrors : Prop :=
  (∀ (i : Instr) (s t : State) (st : Status), exec i s = .next t → t.lastStatus = some st →
    (s.phase ≠ .build → isFatal st = false) ∧
    (isFatal st = true → t.phase = .failed ∧ t.err = st.code ∧ (t.err = 1#8 ∨ t.err = 2#8 ∨ t.err = 5#8) ∧
      t.errop = i.op.code ∧ t.errd = i.fields.2) ∧
    (isFatal st = false → i.op ≠ .init → t.err = s.err ∧ t.errop = s.errop ∧ t.errd = s.errd) ∧
    (i.op = .init → t.err = 0#8 ∧ t.errop = 0#8 ∧ t.errd = 0#64) ∧
    (isRefusal st = true → t = refuse st { s with candovf := t.candovf, dgstovf := t.dgstovf } ∧
      (s.candovf = true → t.candovf = true) ∧ (s.dgstovf = true → t.dgstovf = true))) ∧
  (∀ (s t : State) (rest : List HostEvent), s.host = .reset :: rest → step s = .next t →
    t.err = 0#8 ∧ t.errop = 0#8 ∧ t.errd = 0#64)

/-- R13, R196: reset and `INIT` give BUILD from any phase, `COMMIT` gives READY from BUILD, a fatal error gives FAILED from
BUILD, and there is no other change of phase; in FAILED only `INIT`, `RD` and the encoder's commands are accepted; the
phases are numbered 0, 1, 2 and 3 is never taken. -/
def Obligations.PhaseChangesOnlyAsR13Says : Prop :=
  (∀ (i : Instr) (s t : State) (st : Status), exec i s = .next t → t.lastStatus = some st →
    t.phase =
      (if i.op = .init then .build
      else if isFatal st then .failed
      else if i.op = .commit ∧ s.phase = .build then .ready
      else s.phase) ∧
    (isFatal st = true → s.phase = .build) ∧
    (s.phase = .failed → st = .ok →
      i.op = .init ∨ i.op = .rd ∨ i.op = .encClr ∨ i.op = .encPush ∨ i.op = .encEnd)) ∧
  (∀ (s t : State) (rest : List HostEvent), s.host = .reset :: rest → step s = .next t → t.phase = .build) ∧
  Phase.build.code = 0#2 ∧ Phase.ready.code = 1#2 ∧ Phase.failed.code = 2#2 ∧ ∀ p : Phase, p.code ≠ 3#2

/-- R32: in READY no command but `INIT` changes the key or the configuration or leaves READY, and a command other than
the encoder's writes nothing but the window, the candidate, the truncation engine's registers and `PERR` (with the
ports). -/
def Obligations.ReadyInstanceIsImmutable : Prop :=
  ∀ (i : Instr) (s t : State), s.phase = .ready → i.op ≠ .init → exec i s = .next t →
    t.phase = .ready ∧ t.key = s.key ∧ t.digits = s.digits ∧ t.period = s.period ∧ t.alg = s.alg ∧
    (i.op ≠ .encClr → i.op ≠ .encPush → i.op ≠ .encEnd →
      t = { s with
        window := t.window, cand := t.cand, candovf := t.candovf
        dgst := t.dgst, dgstovf := t.dgstovf, offset := t.offset, p31 := t.p31, codeval := t.codeval
        code := t.code, coden := t.coden, codev := t.codev
        perr := t.perr, resp := t.resp, reqs := t.reqs })

/-- R33: in READY the answers of the time commands and of `HOTP.COMPUTE` are a function of the instance, the command, the
clock and `HMAC` alone; that of `TOTP.VERIFY` of those and the candidate, the window and `CANDOVF`. -/
def Obligations.AnswersDependOnTheInstanceAlone : Prop :=
  (∀ (s s' : State) (i : Instr), sameInstance s s' →
    i.op = .hotpCompute ∨ i.op = .totpCtr ∨ i.op = .totpRem ∨ i.op = .totpGen →
    ∃ t t', exec i s = .next t ∧ exec i s' = .next t' ∧ t.resp = t'.resp) ∧
  (∀ (s s' : State) (x : TimeArg), sameInstance s s' → s.cand = s'.cand → s.window = s'.window →
    s.candovf = s'.candovf →
    ∃ t t', exec (.totpVerify x) s = .next t ∧ exec (.totpVerify x) s' = .next t' ∧ t.resp = t'.resp)

/-- R28: no command reads back `KEY`, `ACC`, `DGST`, `CAND` or `EACC`: with other contents of the same lengths every
command gives the same answer, where a command whose very answer is computed from one of them (the keyed commands from the
key, `HOTP.TRUNC` from the digest, `TOTP.VERIFY` from the candidate, the encoder from its own bits) keeps that one. -/
def Obligations.KeyMaterialIsNotReadable : Prop :=
  ∀ (i : Instr) (s : State) (key dgst cand : List Byte) (acc eacc : BitVec 12),
    key.length = s.key.length → dgst.length = s.dgst.length → cand.length = s.cand.length →
    (i.op = .hotpCompute ∨ i.op = .totpGen ∨ i.op = .totpVerify → key = s.key) →
    (i.op = .hotpTrunc → dgst = s.dgst) → (i.op = .totpVerify → cand = s.cand) →
    (i.op = .encPush ∨ i.op = .encEnd → eacc = s.eacc) →
    ∃ t t', exec i s = .next t ∧ exec i (withSecrets key dgst cand acc eacc s) = .next t' ∧ t.resp = t'.resp

/-- R30: the clock is read only by a time command with the selector CLOCK, which does what it does for that number of
milliseconds; every other command does the same whatever the clock port shows. -/
def Obligations.OnlyClockCommandsReadTheClock : Prop :=
  (∀ (i : Instr) (s : State) (now : Word),
    i ≠ .totpCtr .clock → i ≠ .totpRem .clock → i ≠ .totpGen .clock → i ≠ .totpVerify .clock →
    ∃ t, exec i s = .next t ∧ exec i { s with nowMs := now } = .next { t with nowMs := now }) ∧
  (∀ s : State, exec (.totpCtr .clock) s = exec (.totpCtr (.ms s.nowMs)) s ∧
    exec (.totpRem .clock) s = exec (.totpRem (.ms s.nowMs)) s ∧
    exec (.totpGen .clock) s = exec (.totpGen (.ms s.nowMs)) s ∧
    exec (.totpVerify .clock) s = exec (.totpVerify (.ms s.nowMs)) s)

/-- R205: in READY the four time commands and `HOTP.COMPUTE` raise no fatal error whatever their operand: once well formed
they answer OK, but for a `TOTP.VERIFY` of an overflowed candidate, which is refused with BufferOverflow. -/
def Obligations.RunTimeCommandsAreTotal : Prop :=
  (∀ (i : Instr) (s : State), s.phase = .ready →
    i.op = .totpCtr ∨ i.op = .totpRem ∨ i.op = .totpGen ∨ i.op = .hotpCompute ∨ i.op = .totpVerify →
    ∃ t, exec i s = .next t ∧ t.phase = .ready ∧
      t.lastStatus = some (if i.op = .totpVerify ∧ s.candovf = true then .bufferOverflow else .ok)) ∧
  (∀ (o : Op) (a : Byte) (d : Word) (s : State), s.phase = .ready →
    o = .totpCtr ∨ o = .totpRem ∨ o = .totpGen ∨ o = .hotpCompute ∨ o = .totpVerify →
    ∃ t st, step (offer o.code a d s) = .next t ∧ t.lastStatus = some st ∧
      (st = .ok ∨ (st = .illegalCommand ∧ wordLegal s.params.hasEnc o.code a d = false) ∨
        (st = .bufferOverflow ∧ o = .totpVerify ∧ s.candovf = true)))

/-- R14: when each of the four flags is set and cleared, and that `CANDOVF` holds `TOTP.VERIFY` off and `DGSTOVF` holds
`HOTP.TRUNC` off. -/
def Obligations.FlagsAreSetAndClearedAsR14Says : Prop :=
  (∀ (i : Instr) (s t : State) (st : Status), exec i s = .next t → t.lastStatus = some st →
    t.perr = (s.perr || isRefusal st) ∧
    t.candovf = (if i.op = .candPush ∧ st = .bufferOverflow then true
      else if st = .ok ∧ (i.op = .candClr ∨ i.op = .init) then false else s.candovf) ∧
    t.dgstovf = (if i.op = .dgstPush ∧ st = .bufferOverflow then true
      else if st = .ok ∧ (i.op = .dgstClr ∨ i.op = .init ∨ i.op = .hotpCompute ∨ i.op = .totpGen) then false
      else s.dgstovf) ∧
    t.codev = (if st = .ok ∧ (i.op = .hotpTrunc ∨ i.op = .hotpCompute ∨ i.op = .totpGen) then true
      else if st = .ok ∧ (i.op = .dgstClr ∨ i.op = .dgstPush ∨ i.op = .init) then false else s.codev)) ∧
  (∀ (x : TimeArg) (s : State), s.phase = .ready → s.candovf = true →
    exec (.totpVerify x) s = .next (refuse .bufferOverflow s)) ∧
  (∀ s : State, s.phase ≠ .failed → s.dgstovf = true → exec .hotpTrunc s = .next (refuse .badDigest s)) ∧
  (∀ (s t : State) (rest : List HostEvent), s.host = .reset :: rest → step s = .next t →
    t.perr = false ∧ t.candovf = false ∧ t.dgstovf = false ∧ t.codev = false)

/-- R40, R41, Table B, with R21, R23, R25 and R26 for the emptying: which command writes which buffer, and how. A keyed
digest has the 20, 32 or 64 bytes of `HLEN` (R7, Table P). -/
def Obligations.BuffersAreWrittenAsTableBSays : Prop :=
  ∀ (i : Instr) (s t : State) (st : Status), exec i s = .next t → t.lastStatus = some st →
    (t.key = s.key ∨ (i.op = .b32Push ∧ st = .ok ∧ ∃ b, t.key = s.key ++ [b]) ∨
      (t.key = [] ∧ (i.op = .init ∨ isFatal st = true))) ∧
    (t.dgst = s.dgst ∨ (i.op = .dgstPush ∧ ∃ b, t.dgst = s.dgst ++ [b]) ∨
      (t.dgst = [] ∧ (i.op = .dgstClr ∨ i.op = .init)) ∨
      ((i.op = .hotpCompute ∨ i.op = .totpGen) ∧
        ∃ q, t.reqs = [q] ∧ t.dgst = keyedHash s.params q ∧
          t.dgst.length = match s.alg with | .sha1 => 20 | .sha256 => 32 | .sha512 => 64)) ∧
    (t.cand = s.cand ∨ (i.op = .candPush ∧ ∃ b, t.cand = s.cand ++ [b]) ∨
      (t.cand = [] ∧ (i.op = .candClr ∨ i.op = .init))) ∧
    ((t.code = s.code ∧ t.coden = s.coden) ∨ i.op = .hotpTrunc ∨ i.op = .hotpCompute ∨ i.op = .totpGen ∨
      (t.code = Vector.replicate 8 0#8 ∧ t.coden = 0#4 ∧ (i.op = .dgstClr ∨ i.op = .init)))

/-- R50, R75: keyed-hash requests are made by `HOTP.COMPUTE` and `TOTP.GEN`, one each, and by `TOTP.VERIFY`, and by no
other command; each carries the instance's algorithm and key and the 8 bytes of a counter. -/
def Obligations.OnlyThreeCommandsAskTheKeyedHash : Prop :=
  ∀ (i : Instr) (s t : State), exec i s = .next t →
    (i.op ≠ .totpVerify → t.reqs.length =
      if t.answeredOk = true ∧ (i.op = .hotpCompute ∨ i.op = .totpGen) then 1 else 0) ∧
    (i.op = .totpVerify → t.answeredOk = false → t.reqs = []) ∧
    (∀ q ∈ t.reqs, q.alg = s.alg ∧ q.key = s.key ∧ ∃ c : Word, q.msg = be8 c)

/-- Every register invariant of `Inv` holds right after reset. -/
def Obligations.ResetStateKeepsTheInvariant : Prop := Inv State.reset

/-- Every step keeps `Inv`, from every state that has it (R14 to R17, R20 to R26, R97, R192). -/
def Obligations.EveryStepKeepsTheInvariant : Prop :=
  ∀ s t : State, Inv s → step s = .next t → Inv t
end

