-- ==== Sys2Proof/Laws/Decode.lean ====
section
/-! SUPPORT. The decoder's tables read both ways, and its fields taken from a command word. -/

namespace Sys2Proof

/-- Table O is unambiguous: the row of an opcode is found by its code. -/
@[simp] theorem Op.ofCode?_code (o : Op) : Op.ofCode? o.code = some o := by cases o <;> decide

theorem Op.code_of_ofCode? {c : Byte} {o : Op} (h : Op.ofCode? c = some o) : o.code = c := by
  simpa using List.find?_some h

/-- Table R is unambiguous. -/
@[simp] theorem Reg.ofNum?_num (k : Reg) : Reg.ofNum? k.num = some k := by cases k <;> decide

theorem Reg.num_of_ofNum? {c : Byte} {k : Reg} (h : Reg.ofNum? c = some k) : k.num = c := by
  simpa using List.find?_some h

/-- Every bit of a command word belongs to one field (Table F1). -/
theorem cmdWord_getLsbD (op a : Byte) (d : Word) (i : Nat) :
    (cmdWord op a d).getLsbD i =
      if i < 64 then d.getLsbD i else if i < 72 then a.getLsbD (i - 64) else op.getLsbD (i - 72) := by
  have h : (cmdWord op a d).getLsbD i = _ := BitVec.getLsbD_append (x := op ++ a) (y := d) (i := i)
  rw [h, BitVec.getLsbD_append]
  split
  · rfl
  · rename_i h64
    by_cases h72 : i < 72
    · rw [if_pos h72, if_pos (by omega)]
    · rw [if_neg h72, if_neg (by omega), show i - 64 - 8 = i - 72 by omega]

@[simp] theorem cmdWord_op (op a : Byte) (d : Word) : (cmdWord op a d).extractLsb' 72 8 = op := by
  apply BitVec.eq_of_getLsbD_eq
  intro i hi
  simp [cmdWord_getLsbD, hi]
  omega

@[simp] theorem cmdWord_a (op a : Byte) (d : Word) : (cmdWord op a d).extractLsb' 64 8 = a := by
  apply BitVec.eq_of_getLsbD_eq
  intro i hi
  simp [cmdWord_getLsbD, hi]
  omega

@[simp] theorem cmdWord_d (op a : Byte) (d : Word) : (cmdWord op a d).extractLsb' 0 64 = d := by
  apply BitVec.eq_of_getLsbD_eq
  intro i hi
  simp [cmdWord_getLsbD, hi]

/-- A word is made of its three fields. -/
theorem cmdWord_fields (w : PortWord) :
    cmdWord (w.extractLsb' 72 8) (w.extractLsb' 64 8) (w.extractLsb' 0 64) = w := by
  apply BitVec.eq_of_getLsbD_eq
  intro i hi
  rw [cmdWord_getLsbD]
  simp only [BitVec.getLsbD_extractLsb']
  split
  · simp [*]
  · split
    · rw [show 64 + (i - 64) = i by omega, decide_eq_true (show i - 64 < 8 by omega), Bool.true_and]
    · rw [show 72 + (i - 72) = i by omega, decide_eq_true (show i - 72 < 8 by omega), Bool.true_and]

/-- Decoding a word laid out by Table F1 reads its three fields (R60). -/
@[simp] theorem decodeWord_cmdWord (hasEnc : Bool) (op a : Byte) (d : Word) :
    decodeWord hasEnc (cmdWord op a d) = decodeFields hasEnc op a d := by
  simp [decodeWord]

/-! ### The operand forms, read both ways -/

/-- The forms without an operand (R65). -/
theorem decodeNone_ok_iff (i j : Instr) (a : Byte) (d : Word) :
    decodeNone i a d = .ok j ↔ j = i ∧ a = 0#8 ∧ d = 0#64 := by
  unfold decodeNone
  split
  · next h => simp [h, eq_comm]
  · next h => simp; intro _ h1 h2; exact h ⟨h1, h2⟩

/-- The forms whose operand is all of `d` (R64 (b), R65). -/
theorem decodeWhole_ok_iff (f : Word → Instr) (j : Instr) (a : Byte) (d : Word) :
    decodeWhole f a d = .ok j ↔ j = f d ∧ a = 0#8 := by
  unfold decodeWhole
  split
  · next h => simp [h, eq_comm]
  · next h => simp [h]

/-- The high bits of `d` are clear exactly when it is one byte. -/
theorem high_bits_zero_iff (d : Word) : d.extractLsb' 8 56 = 0#56 ↔ d.toNat < 256 := by
  rw [← BitVec.toNat_inj]
  simp [BitVec.extractLsb'_toNat, Nat.shiftRight_eq_div_pow]
  omega

theorem low_byte_eq (d : Word) : d.extractLsb' 0 8 = d.setWidth 8 := by
  apply BitVec.eq_of_toNat_eq
  simp

/-- The forms whose operand is the low byte of `d` (R64 (a), R65). -/
theorem decodeByte_ok_iff (f : Byte → Instr) (j : Instr) (a : Byte) (d : Word) :
    decodeByte f a d = .ok j ↔ j = f (d.setWidth 8) ∧ a = 0#8 ∧ d.toNat < 256 := by
  unfold decodeByte
  simp only [high_bits_zero_iff, low_byte_eq]
  split
  · next h => simp [h, eq_comm]
  · next h => simp; intro _ h1; by_contra h2; exact h ⟨h1, by omega⟩

/-- The fields `a` of the time forms, by cases on the byte (R67). -/
theorem time_fields (a : Byte) :
    (a.extractLsb' 2 6 ≠ 0#6 ↔ 4 ≤ a.toNat) ∧ (a.toNat < 4 → (a.extractLsb' 0 2).toNat = a.toNat) := by
  revert a
  decide

/-- A time operand's fields decode to it (R67). -/
@[simp] theorem decodeTime_fields (f : TimeArg → Instr) (t : TimeArg) :
    decodeTime f t.fields.1 t.fields.2 = .ok (f t) := by
  cases t <;> simp [TimeArg.fields, decodeTime]

/-- A byte operand's fields decode to it (R64 (a)). -/
@[simp] theorem decodeByte_fields (f : Byte → Instr) (b : Byte) : decodeByte f 0#8 (b.setWidth 64) = .ok (f b) := by
  rw [decodeByte_ok_iff]
  refine ⟨?_, rfl, by simp; omega⟩
  congr 1
  apply BitVec.eq_of_toNat_eq
  simp

end Sys2Proof
end

