-- ==== Sys2Proof/Laws/State.lean ====
section
/-! SUPPORT. One lemma per field for each named update of State, so that no proof unfolds one. -/

namespace Sys2Proof.Machine

/-! ### `respond` -/

@[simp] theorem respond_phase (n : Byte) (r : Word) (s : State) : (respond n r s).phase = s.phase := rfl
@[simp] theorem respond_perr (n : Byte) (r : Word) (s : State) : (respond n r s).perr = s.perr := rfl
@[simp] theorem respond_candovf (n : Byte) (r : Word) (s : State) : (respond n r s).candovf = s.candovf := rfl
@[simp] theorem respond_dgstovf (n : Byte) (r : Word) (s : State) : (respond n r s).dgstovf = s.dgstovf := rfl
@[simp] theorem respond_codev (n : Byte) (r : Word) (s : State) : (respond n r s).codev = s.codev := rfl
@[simp] theorem respond_err (n : Byte) (r : Word) (s : State) : (respond n r s).err = s.err := rfl
@[simp] theorem respond_errop (n : Byte) (r : Word) (s : State) : (respond n r s).errop = s.errop := rfl
@[simp] theorem respond_errd (n : Byte) (r : Word) (s : State) : (respond n r s).errd = s.errd := rfl
@[simp] theorem respond_digits (n : Byte) (r : Word) (s : State) : (respond n r s).digits = s.digits := rfl
@[simp] theorem respond_period (n : Byte) (r : Word) (s : State) : (respond n r s).period = s.period := rfl
@[simp] theorem respond_alg (n : Byte) (r : Word) (s : State) : (respond n r s).alg = s.alg := rfl
@[simp] theorem respond_window (n : Byte) (r : Word) (s : State) : (respond n r s).window = s.window := rfl
@[simp] theorem respond_acc (n : Byte) (r : Word) (s : State) : (respond n r s).acc = s.acc := rfl
@[simp] theorem respond_nb (n : Byte) (r : Word) (s : State) : (respond n r s).nb = s.nb := rfl
@[simp] theorem respond_key (n : Byte) (r : Word) (s : State) : (respond n r s).key = s.key := rfl
@[simp] theorem respond_eacc (n : Byte) (r : Word) (s : State) : (respond n r s).eacc = s.eacc := rfl
@[simp] theorem respond_enb (n : Byte) (r : Word) (s : State) : (respond n r s).enb = s.enb := rfl
@[simp] theorem respond_dgst (n : Byte) (r : Word) (s : State) : (respond n r s).dgst = s.dgst := rfl
@[simp] theorem respond_offset (n : Byte) (r : Word) (s : State) : (respond n r s).offset = s.offset := rfl
@[simp] theorem respond_p31 (n : Byte) (r : Word) (s : State) : (respond n r s).p31 = s.p31 := rfl
@[simp] theorem respond_codeval (n : Byte) (r : Word) (s : State) : (respond n r s).codeval = s.codeval := rfl
@[simp] theorem respond_code (n : Byte) (r : Word) (s : State) : (respond n r s).code = s.code := rfl
@[simp] theorem respond_coden (n : Byte) (r : Word) (s : State) : (respond n r s).coden = s.coden := rfl
@[simp] theorem respond_cand (n : Byte) (r : Word) (s : State) : (respond n r s).cand = s.cand := rfl
@[simp] theorem respond_nowMs (n : Byte) (r : Word) (s : State) : (respond n r s).nowMs = s.nowMs := rfl
@[simp] theorem respond_resp (n : Byte) (r : Word) (s : State) : (respond n r s).resp = some ⟨.ok, n, r⟩ := rfl
@[simp] theorem respond_reqs (n : Byte) (r : Word) (s : State) : (respond n r s).reqs = [] := rfl
@[simp] theorem respond_host (n : Byte) (r : Word) (s : State) : (respond n r s).host = s.host := rfl
@[simp] theorem respond_params (n : Byte) (r : Word) (s : State) : (respond n r s).params = s.params := rfl

/-! ### `respondAfter` -/

@[simp] theorem respondAfter_phase (qs : List HmacRequest) (n : Byte) (r : Word) (s : State) : (respondAfter qs n r s).phase = s.phase := rfl
@[simp] theorem respondAfter_perr (qs : List HmacRequest) (n : Byte) (r : Word) (s : State) : (respondAfter qs n r s).perr = s.perr := rfl
@[simp] theorem respondAfter_candovf (qs : List HmacRequest) (n : Byte) (r : Word) (s : State) : (respondAfter qs n r s).candovf = s.candovf := rfl
@[simp] theorem respondAfter_dgstovf (qs : List HmacRequest) (n : Byte) (r : Word) (s : State) : (respondAfter qs n r s).dgstovf = s.dgstovf := rfl
@[simp] theorem respondAfter_codev (qs : List HmacRequest) (n : Byte) (r : Word) (s : State) : (respondAfter qs n r s).codev = s.codev := rfl
@[simp] theorem respondAfter_err (qs : List HmacRequest) (n : Byte) (r : Word) (s : State) : (respondAfter qs n r s).err = s.err := rfl
@[simp] theorem respondAfter_errop (qs : List HmacRequest) (n : Byte) (r : Word) (s : State) : (respondAfter qs n r s).errop = s.errop := rfl
@[simp] theorem respondAfter_errd (qs : List HmacRequest) (n : Byte) (r : Word) (s : State) : (respondAfter qs n r s).errd = s.errd := rfl
@[simp] theorem respondAfter_digits (qs : List HmacRequest) (n : Byte) (r : Word) (s : State) : (respondAfter qs n r s).digits = s.digits := rfl
@[simp] theorem respondAfter_period (qs : List HmacRequest) (n : Byte) (r : Word) (s : State) : (respondAfter qs n r s).period = s.period := rfl
@[simp] theorem respondAfter_alg (qs : List HmacRequest) (n : Byte) (r : Word) (s : State) : (respondAfter qs n r s).alg = s.alg := rfl
@[simp] theorem respondAfter_window (qs : List HmacRequest) (n : Byte) (r : Word) (s : State) : (respondAfter qs n r s).window = s.window := rfl
@[simp] theorem respondAfter_acc (qs : List HmacRequest) (n : Byte) (r : Word) (s : State) : (respondAfter qs n r s).acc = s.acc := rfl
@[simp] theorem respondAfter_nb (qs : List HmacRequest) (n : Byte) (r : Word) (s : State) : (respondAfter qs n r s).nb = s.nb := rfl
@[simp] theorem respondAfter_key (qs : List HmacRequest) (n : Byte) (r : Word) (s : State) : (respondAfter qs n r s).key = s.key := rfl
@[simp] theorem respondAfter_eacc (qs : List HmacRequest) (n : Byte) (r : Word) (s : State) : (respondAfter qs n r s).eacc = s.eacc := rfl
@[simp] theorem respondAfter_enb (qs : List HmacRequest) (n : Byte) (r : Word) (s : State) : (respondAfter qs n r s).enb = s.enb := rfl
@[simp] theorem respondAfter_dgst (qs : List HmacRequest) (n : Byte) (r : Word) (s : State) : (respondAfter qs n r s).dgst = s.dgst := rfl
@[simp] theorem respondAfter_offset (qs : List HmacRequest) (n : Byte) (r : Word) (s : State) : (respondAfter qs n r s).offset = s.offset := rfl
@[simp] theorem respondAfter_p31 (qs : List HmacRequest) (n : Byte) (r : Word) (s : State) : (respondAfter qs n r s).p31 = s.p31 := rfl
@[simp] theorem respondAfter_codeval (qs : List HmacRequest) (n : Byte) (r : Word) (s : State) : (respondAfter qs n r s).codeval = s.codeval := rfl
@[simp] theorem respondAfter_code (qs : List HmacRequest) (n : Byte) (r : Word) (s : State) : (respondAfter qs n r s).code = s.code := rfl
@[simp] theorem respondAfter_coden (qs : List HmacRequest) (n : Byte) (r : Word) (s : State) : (respondAfter qs n r s).coden = s.coden := rfl
@[simp] theorem respondAfter_cand (qs : List HmacRequest) (n : Byte) (r : Word) (s : State) : (respondAfter qs n r s).cand = s.cand := rfl
@[simp] theorem respondAfter_nowMs (qs : List HmacRequest) (n : Byte) (r : Word) (s : State) : (respondAfter qs n r s).nowMs = s.nowMs := rfl
@[simp] theorem respondAfter_resp (qs : List HmacRequest) (n : Byte) (r : Word) (s : State) : (respondAfter qs n r s).resp = some ⟨.ok, n, r⟩ := rfl
@[simp] theorem respondAfter_reqs (qs : List HmacRequest) (n : Byte) (r : Word) (s : State) : (respondAfter qs n r s).reqs = qs := rfl
@[simp] theorem respondAfter_host (qs : List HmacRequest) (n : Byte) (r : Word) (s : State) : (respondAfter qs n r s).host = s.host := rfl
@[simp] theorem respondAfter_params (qs : List HmacRequest) (n : Byte) (r : Word) (s : State) : (respondAfter qs n r s).params = s.params := rfl

/-! ### `raiseRefusal` -/

@[simp] theorem raiseRefusal_phase (e : RefusalCause) (s : State) : (raiseRefusal e s).phase = s.phase := rfl
@[simp] theorem raiseRefusal_perr (e : RefusalCause) (s : State) : (raiseRefusal e s).perr = true := rfl
@[simp] theorem raiseRefusal_candovf (e : RefusalCause) (s : State) : (raiseRefusal e s).candovf = s.candovf := rfl
@[simp] theorem raiseRefusal_dgstovf (e : RefusalCause) (s : State) : (raiseRefusal e s).dgstovf = s.dgstovf := rfl
@[simp] theorem raiseRefusal_codev (e : RefusalCause) (s : State) : (raiseRefusal e s).codev = s.codev := rfl
@[simp] theorem raiseRefusal_err (e : RefusalCause) (s : State) : (raiseRefusal e s).err = s.err := rfl
@[simp] theorem raiseRefusal_errop (e : RefusalCause) (s : State) : (raiseRefusal e s).errop = s.errop := rfl
@[simp] theorem raiseRefusal_errd (e : RefusalCause) (s : State) : (raiseRefusal e s).errd = s.errd := rfl
@[simp] theorem raiseRefusal_digits (e : RefusalCause) (s : State) : (raiseRefusal e s).digits = s.digits := rfl
@[simp] theorem raiseRefusal_period (e : RefusalCause) (s : State) : (raiseRefusal e s).period = s.period := rfl
@[simp] theorem raiseRefusal_alg (e : RefusalCause) (s : State) : (raiseRefusal e s).alg = s.alg := rfl
@[simp] theorem raiseRefusal_window (e : RefusalCause) (s : State) : (raiseRefusal e s).window = s.window := rfl
@[simp] theorem raiseRefusal_acc (e : RefusalCause) (s : State) : (raiseRefusal e s).acc = s.acc := rfl
@[simp] theorem raiseRefusal_nb (e : RefusalCause) (s : State) : (raiseRefusal e s).nb = s.nb := rfl
@[simp] theorem raiseRefusal_key (e : RefusalCause) (s : State) : (raiseRefusal e s).key = s.key := rfl
@[simp] theorem raiseRefusal_eacc (e : RefusalCause) (s : State) : (raiseRefusal e s).eacc = s.eacc := rfl
@[simp] theorem raiseRefusal_enb (e : RefusalCause) (s : State) : (raiseRefusal e s).enb = s.enb := rfl
@[simp] theorem raiseRefusal_dgst (e : RefusalCause) (s : State) : (raiseRefusal e s).dgst = s.dgst := rfl
@[simp] theorem raiseRefusal_offset (e : RefusalCause) (s : State) : (raiseRefusal e s).offset = s.offset := rfl
@[simp] theorem raiseRefusal_p31 (e : RefusalCause) (s : State) : (raiseRefusal e s).p31 = s.p31 := rfl
@[simp] theorem raiseRefusal_codeval (e : RefusalCause) (s : State) : (raiseRefusal e s).codeval = s.codeval := rfl
@[simp] theorem raiseRefusal_code (e : RefusalCause) (s : State) : (raiseRefusal e s).code = s.code := rfl
@[simp] theorem raiseRefusal_coden (e : RefusalCause) (s : State) : (raiseRefusal e s).coden = s.coden := rfl
@[simp] theorem raiseRefusal_cand (e : RefusalCause) (s : State) : (raiseRefusal e s).cand = s.cand := rfl
@[simp] theorem raiseRefusal_nowMs (e : RefusalCause) (s : State) : (raiseRefusal e s).nowMs = s.nowMs := rfl
@[simp] theorem raiseRefusal_resp (e : RefusalCause) (s : State) : (raiseRefusal e s).resp = some ⟨e.status, 0#8, 0#64⟩ := rfl
@[simp] theorem raiseRefusal_reqs (e : RefusalCause) (s : State) : (raiseRefusal e s).reqs = [] := rfl
@[simp] theorem raiseRefusal_host (e : RefusalCause) (s : State) : (raiseRefusal e s).host = s.host := rfl
@[simp] theorem raiseRefusal_params (e : RefusalCause) (s : State) : (raiseRefusal e s).params = s.params := rfl

/-! ### `raiseFatal` -/

@[simp] theorem raiseFatal_phase (e : FatalError) (o : Op) (d : Word) (s : State) : (raiseFatal e o d s).phase = .failed := rfl
@[simp] theorem raiseFatal_perr (e : FatalError) (o : Op) (d : Word) (s : State) : (raiseFatal e o d s).perr = s.perr := rfl
@[simp] theorem raiseFatal_candovf (e : FatalError) (o : Op) (d : Word) (s : State) : (raiseFatal e o d s).candovf = s.candovf := rfl
@[simp] theorem raiseFatal_dgstovf (e : FatalError) (o : Op) (d : Word) (s : State) : (raiseFatal e o d s).dgstovf = s.dgstovf := rfl
@[simp] theorem raiseFatal_codev (e : FatalError) (o : Op) (d : Word) (s : State) : (raiseFatal e o d s).codev = s.codev := rfl
@[simp] theorem raiseFatal_err (e : FatalError) (o : Op) (d : Word) (s : State) : (raiseFatal e o d s).err = e.status.code := rfl
@[simp] theorem raiseFatal_errop (e : FatalError) (o : Op) (d : Word) (s : State) : (raiseFatal e o d s).errop = o.code := rfl
@[simp] theorem raiseFatal_errd (e : FatalError) (o : Op) (d : Word) (s : State) : (raiseFatal e o d s).errd = d := rfl
@[simp] theorem raiseFatal_digits (e : FatalError) (o : Op) (d : Word) (s : State) : (raiseFatal e o d s).digits = s.digits := rfl
@[simp] theorem raiseFatal_period (e : FatalError) (o : Op) (d : Word) (s : State) : (raiseFatal e o d s).period = s.period := rfl
@[simp] theorem raiseFatal_alg (e : FatalError) (o : Op) (d : Word) (s : State) : (raiseFatal e o d s).alg = s.alg := rfl
@[simp] theorem raiseFatal_window (e : FatalError) (o : Op) (d : Word) (s : State) : (raiseFatal e o d s).window = s.window := rfl
@[simp] theorem raiseFatal_acc (e : FatalError) (o : Op) (d : Word) (s : State) : (raiseFatal e o d s).acc = 0#12 := rfl
@[simp] theorem raiseFatal_nb (e : FatalError) (o : Op) (d : Word) (s : State) : (raiseFatal e o d s).nb = 0#4 := rfl
@[simp] theorem raiseFatal_key (e : FatalError) (o : Op) (d : Word) (s : State) : (raiseFatal e o d s).key = [] := rfl
@[simp] theorem raiseFatal_eacc (e : FatalError) (o : Op) (d : Word) (s : State) : (raiseFatal e o d s).eacc = s.eacc := rfl
@[simp] theorem raiseFatal_enb (e : FatalError) (o : Op) (d : Word) (s : State) : (raiseFatal e o d s).enb = s.enb := rfl
@[simp] theorem raiseFatal_dgst (e : FatalError) (o : Op) (d : Word) (s : State) : (raiseFatal e o d s).dgst = s.dgst := rfl
@[simp] theorem raiseFatal_offset (e : FatalError) (o : Op) (d : Word) (s : State) : (raiseFatal e o d s).offset = s.offset := rfl
@[simp] theorem raiseFatal_p31 (e : FatalError) (o : Op) (d : Word) (s : State) : (raiseFatal e o d s).p31 = s.p31 := rfl
@[simp] theorem raiseFatal_codeval (e : FatalError) (o : Op) (d : Word) (s : State) : (raiseFatal e o d s).codeval = s.codeval := rfl
@[simp] theorem raiseFatal_code (e : FatalError) (o : Op) (d : Word) (s : State) : (raiseFatal e o d s).code = s.code := rfl
@[simp] theorem raiseFatal_coden (e : FatalError) (o : Op) (d : Word) (s : State) : (raiseFatal e o d s).coden = s.coden := rfl
@[simp] theorem raiseFatal_cand (e : FatalError) (o : Op) (d : Word) (s : State) : (raiseFatal e o d s).cand = s.cand := rfl
@[simp] theorem raiseFatal_nowMs (e : FatalError) (o : Op) (d : Word) (s : State) : (raiseFatal e o d s).nowMs = s.nowMs := rfl
@[simp] theorem raiseFatal_resp (e : FatalError) (o : Op) (d : Word) (s : State) : (raiseFatal e o d s).resp = some ⟨e.status, 0#8, 0#64⟩ := rfl
@[simp] theorem raiseFatal_reqs (e : FatalError) (o : Op) (d : Word) (s : State) : (raiseFatal e o d s).reqs = [] := rfl
@[simp] theorem raiseFatal_host (e : FatalError) (o : Op) (d : Word) (s : State) : (raiseFatal e o d s).host = s.host := rfl
@[simp] theorem raiseFatal_params (e : FatalError) (o : Op) (d : Word) (s : State) : (raiseFatal e o d s).params = s.params := rfl

/-! ### `latch` -/

@[simp] theorem latch_phase (x : Truncation) (s : State) : (latch x s).phase = s.phase := rfl
@[simp] theorem latch_perr (x : Truncation) (s : State) : (latch x s).perr = s.perr := rfl
@[simp] theorem latch_candovf (x : Truncation) (s : State) : (latch x s).candovf = s.candovf := rfl
@[simp] theorem latch_dgstovf (x : Truncation) (s : State) : (latch x s).dgstovf = s.dgstovf := rfl
@[simp] theorem latch_codev (x : Truncation) (s : State) : (latch x s).codev = true := rfl
@[simp] theorem latch_err (x : Truncation) (s : State) : (latch x s).err = s.err := rfl
@[simp] theorem latch_errop (x : Truncation) (s : State) : (latch x s).errop = s.errop := rfl
@[simp] theorem latch_errd (x : Truncation) (s : State) : (latch x s).errd = s.errd := rfl
@[simp] theorem latch_digits (x : Truncation) (s : State) : (latch x s).digits = s.digits := rfl
@[simp] theorem latch_period (x : Truncation) (s : State) : (latch x s).period = s.period := rfl
@[simp] theorem latch_alg (x : Truncation) (s : State) : (latch x s).alg = s.alg := rfl
@[simp] theorem latch_window (x : Truncation) (s : State) : (latch x s).window = s.window := rfl
@[simp] theorem latch_acc (x : Truncation) (s : State) : (latch x s).acc = s.acc := rfl
@[simp] theorem latch_nb (x : Truncation) (s : State) : (latch x s).nb = s.nb := rfl
@[simp] theorem latch_key (x : Truncation) (s : State) : (latch x s).key = s.key := rfl
@[simp] theorem latch_eacc (x : Truncation) (s : State) : (latch x s).eacc = s.eacc := rfl
@[simp] theorem latch_enb (x : Truncation) (s : State) : (latch x s).enb = s.enb := rfl
@[simp] theorem latch_dgst (x : Truncation) (s : State) : (latch x s).dgst = s.dgst := rfl
@[simp] theorem latch_offset (x : Truncation) (s : State) : (latch x s).offset = x.off := rfl
@[simp] theorem latch_p31 (x : Truncation) (s : State) : (latch x s).p31 = x.p31 := rfl
@[simp] theorem latch_codeval (x : Truncation) (s : State) : (latch x s).codeval = x.val := rfl
@[simp] theorem latch_code (x : Truncation) (s : State) : (latch x s).code = codeLatch x.code := rfl
@[simp] theorem latch_coden (x : Truncation) (s : State) : (latch x s).coden = s.digits := rfl
@[simp] theorem latch_cand (x : Truncation) (s : State) : (latch x s).cand = s.cand := rfl
@[simp] theorem latch_nowMs (x : Truncation) (s : State) : (latch x s).nowMs = s.nowMs := rfl
@[simp] theorem latch_resp (x : Truncation) (s : State) : (latch x s).resp = s.resp := rfl
@[simp] theorem latch_reqs (x : Truncation) (s : State) : (latch x s).reqs = s.reqs := rfl
@[simp] theorem latch_host (x : Truncation) (s : State) : (latch x s).host = s.host := rfl
@[simp] theorem latch_params (x : Truncation) (s : State) : (latch x s).params = s.params := rfl

/-! ### `latchKeyed` -/

@[simp] theorem latchKeyed_phase (g : List Byte) (x : Truncation) (s : State) : (latchKeyed g x s).phase = s.phase := rfl
@[simp] theorem latchKeyed_perr (g : List Byte) (x : Truncation) (s : State) : (latchKeyed g x s).perr = s.perr := rfl
@[simp] theorem latchKeyed_candovf (g : List Byte) (x : Truncation) (s : State) : (latchKeyed g x s).candovf = s.candovf := rfl
@[simp] theorem latchKeyed_dgstovf (g : List Byte) (x : Truncation) (s : State) : (latchKeyed g x s).dgstovf = false := rfl
@[simp] theorem latchKeyed_codev (g : List Byte) (x : Truncation) (s : State) : (latchKeyed g x s).codev = true := rfl
@[simp] theorem latchKeyed_err (g : List Byte) (x : Truncation) (s : State) : (latchKeyed g x s).err = s.err := rfl
@[simp] theorem latchKeyed_errop (g : List Byte) (x : Truncation) (s : State) : (latchKeyed g x s).errop = s.errop := rfl
@[simp] theorem latchKeyed_errd (g : List Byte) (x : Truncation) (s : State) : (latchKeyed g x s).errd = s.errd := rfl
@[simp] theorem latchKeyed_digits (g : List Byte) (x : Truncation) (s : State) : (latchKeyed g x s).digits = s.digits := rfl
@[simp] theorem latchKeyed_period (g : List Byte) (x : Truncation) (s : State) : (latchKeyed g x s).period = s.period := rfl
@[simp] theorem latchKeyed_alg (g : List Byte) (x : Truncation) (s : State) : (latchKeyed g x s).alg = s.alg := rfl
@[simp] theorem latchKeyed_window (g : List Byte) (x : Truncation) (s : State) : (latchKeyed g x s).window = s.window := rfl
@[simp] theorem latchKeyed_acc (g : List Byte) (x : Truncation) (s : State) : (latchKeyed g x s).acc = s.acc := rfl
@[simp] theorem latchKeyed_nb (g : List Byte) (x : Truncation) (s : State) : (latchKeyed g x s).nb = s.nb := rfl
@[simp] theorem latchKeyed_key (g : List Byte) (x : Truncation) (s : State) : (latchKeyed g x s).key = s.key := rfl
@[simp] theorem latchKeyed_eacc (g : List Byte) (x : Truncation) (s : State) : (latchKeyed g x s).eacc = s.eacc := rfl
@[simp] theorem latchKeyed_enb (g : List Byte) (x : Truncation) (s : State) : (latchKeyed g x s).enb = s.enb := rfl
@[simp] theorem latchKeyed_dgst (g : List Byte) (x : Truncation) (s : State) : (latchKeyed g x s).dgst = g := rfl
@[simp] theorem latchKeyed_offset (g : List Byte) (x : Truncation) (s : State) : (latchKeyed g x s).offset = x.off := rfl
@[simp] theorem latchKeyed_p31 (g : List Byte) (x : Truncation) (s : State) : (latchKeyed g x s).p31 = x.p31 := rfl
@[simp] theorem latchKeyed_codeval (g : List Byte) (x : Truncation) (s : State) : (latchKeyed g x s).codeval = x.val := rfl
@[simp] theorem latchKeyed_code (g : List Byte) (x : Truncation) (s : State) : (latchKeyed g x s).code = codeLatch x.code := rfl
@[simp] theorem latchKeyed_coden (g : List Byte) (x : Truncation) (s : State) : (latchKeyed g x s).coden = s.digits := rfl
@[simp] theorem latchKeyed_cand (g : List Byte) (x : Truncation) (s : State) : (latchKeyed g x s).cand = s.cand := rfl
@[simp] theorem latchKeyed_nowMs (g : List Byte) (x : Truncation) (s : State) : (latchKeyed g x s).nowMs = s.nowMs := rfl
@[simp] theorem latchKeyed_resp (g : List Byte) (x : Truncation) (s : State) : (latchKeyed g x s).resp = s.resp := rfl
@[simp] theorem latchKeyed_reqs (g : List Byte) (x : Truncation) (s : State) : (latchKeyed g x s).reqs = s.reqs := rfl
@[simp] theorem latchKeyed_host (g : List Byte) (x : Truncation) (s : State) : (latchKeyed g x s).host = s.host := rfl
@[simp] theorem latchKeyed_params (g : List Byte) (x : Truncation) (s : State) : (latchKeyed g x s).params = s.params := rfl

/-! ### `beginConstruction` -/

@[simp] theorem beginConstruction_phase (s : State) : (beginConstruction s).phase = .build := rfl
@[simp] theorem beginConstruction_perr (s : State) : (beginConstruction s).perr = s.perr := rfl
@[simp] theorem beginConstruction_candovf (s : State) : (beginConstruction s).candovf = false := rfl
@[simp] theorem beginConstruction_dgstovf (s : State) : (beginConstruction s).dgstovf = false := rfl
@[simp] theorem beginConstruction_codev (s : State) : (beginConstruction s).codev = false := rfl
@[simp] theorem beginConstruction_err (s : State) : (beginConstruction s).err = 0#8 := rfl
@[simp] theorem beginConstruction_errop (s : State) : (beginConstruction s).errop = 0#8 := rfl
@[simp] theorem beginConstruction_errd (s : State) : (beginConstruction s).errd = 0#64 := rfl
@[simp] theorem beginConstruction_digits (s : State) : (beginConstruction s).digits = 6#4 := rfl
@[simp] theorem beginConstruction_period (s : State) : (beginConstruction s).period = 30#64 := rfl
@[simp] theorem beginConstruction_alg (s : State) : (beginConstruction s).alg = .sha1 := rfl
@[simp] theorem beginConstruction_window (s : State) : (beginConstruction s).window = 1#64 := rfl
@[simp] theorem beginConstruction_acc (s : State) : (beginConstruction s).acc = 0#12 := rfl
@[simp] theorem beginConstruction_nb (s : State) : (beginConstruction s).nb = 0#4 := rfl
@[simp] theorem beginConstruction_key (s : State) : (beginConstruction s).key = [] := rfl
@[simp] theorem beginConstruction_eacc (s : State) : (beginConstruction s).eacc = s.eacc := rfl
@[simp] theorem beginConstruction_enb (s : State) : (beginConstruction s).enb = s.enb := rfl
@[simp] theorem beginConstruction_dgst (s : State) : (beginConstruction s).dgst = [] := rfl
@[simp] theorem beginConstruction_offset (s : State) : (beginConstruction s).offset = 0#4 := rfl
@[simp] theorem beginConstruction_p31 (s : State) : (beginConstruction s).p31 = 0#31 := rfl
@[simp] theorem beginConstruction_codeval (s : State) : (beginConstruction s).codeval = 0#27 := rfl
@[simp] theorem beginConstruction_code (s : State) : (beginConstruction s).code = #v[0#8, 0#8, 0#8, 0#8, 0#8, 0#8, 0#8, 0#8] := rfl
@[simp] theorem beginConstruction_coden (s : State) : (beginConstruction s).coden = 0#4 := rfl
@[simp] theorem beginConstruction_cand (s : State) : (beginConstruction s).cand = [] := rfl
@[simp] theorem beginConstruction_nowMs (s : State) : (beginConstruction s).nowMs = s.nowMs := rfl
@[simp] theorem beginConstruction_resp (s : State) : (beginConstruction s).resp = s.resp := rfl
@[simp] theorem beginConstruction_reqs (s : State) : (beginConstruction s).reqs = s.reqs := rfl
@[simp] theorem beginConstruction_host (s : State) : (beginConstruction s).host = s.host := rfl
@[simp] theorem beginConstruction_params (s : State) : (beginConstruction s).params = s.params := rfl

end Sys2Proof.Machine
end

