-- ==== Sys2Proof/Laws/Ops.lean ====
section
/-! SUPPORT. What the shared operations can do, said once: the checks, the answers, the keyed hash, the big-endian
bytes, the rendered code, the window walk. -/

namespace Sys2Proof.Machine

/-! ### The checks -/

@[simp] theorem requirePhase_true (body s : State) : requirePhase true body s = body := rfl

@[simp] theorem requirePhase_false (body s : State) : requirePhase false body s = raiseRefusal .wrongPhase s := rfl

/-- A phase check either lets the body through or refuses with WrongPhase. -/
theorem requirePhase_cases (b : Bool) (body s : State) :
    (b = true ∧ requirePhase b body s = body) ∨ (b = false ∧ requirePhase b body s = raiseRefusal .wrongPhase s) := by
  cases b <;> simp

@[simp] theorem requireEncoder_present {s : State} (body : State) (h : s.params.hasEnc = true) :
    requireEncoder body s = body := if_pos h

@[simp] theorem requireEncoder_absent {s : State} (body : State) (h : s.params.hasEnc = false) :
    requireEncoder body s = raiseRefusal .illegalCommand s := by simp [requireEncoder, h]

@[simp] theorem inBuild_iff (p : Phase) : p.inBuild = true ↔ p = .build := by cases p <;> decide

@[simp] theorem inReady_iff (p : Phase) : p.inReady = true ↔ p = .ready := by cases p <;> decide

@[simp] theorem notFailed_iff (p : Phase) : p.notFailed = true ↔ p ≠ .failed := by cases p <;> decide

/-- A buffer is full exactly when its length is its capacity; an unbounded one never is. -/
theorem bufferFull_iff (cap : Option Nat) (len : Nat) : bufferFull cap len = true ↔ cap = some len := by
  cases cap with
  | none => simp [bufferFull]
  | some k => simpa [bufferFull] using eq_comm

/-! ### Every command answers -/

/-- `exec` never stops: every command in every state gives a next state (R61, R206). -/
theorem exec_next (i : Instr) (s : State) : ∃ t, exec i s = .next t := by
  cases i <;> exact ⟨_, rfl⟩

/-- Every command word gives a next state. -/
theorem runWord_next (w : PortWord) (s : State) : ∃ t, runWord w s = .next t := by
  unfold runWord
  split
  · exact exec_next _ _
  · exact ⟨_, rfl⟩

/-- Every step gives a next state. -/
theorem step_next (s : State) : ∃ t, step s = .next t := by
  unfold step
  split
  · exact ⟨_, rfl⟩
  · exact runWord_next _ _
  · exact ⟨_, rfl⟩

/-! ### Bytes and codes -/

@[simp] theorem render_length (v dg : Nat) : (render v dg).length = dg := by simp [render]

/-- `RD` shows a latch as it is while a code is latched (R24). -/
@[simp] theorem whileLatched_of_codev {w : Nat} {s : State} (h : s.codev = true) (v : BitVec w) :
    whileLatched s v = v := by simp [whileLatched, h]

/-- `RD` shows zeros while no code is latched (U14). -/
@[simp] theorem whileLatched_of_no_codev {w : Nat} {s : State} (h : s.codev = false) (v : BitVec w) :
    whileLatched s v = 0#w := by simp [whileLatched, h]

@[simp] theorem be8_length (c : Word) : (be8 c).length = 8 := rfl

/-- The keyed hash answers `HLEN(alg)` bytes whatever the parameters name (R8). -/
@[simp] theorem keyedHash_length (p : Params) (q : HmacRequest) : (keyedHash p q).length = hlen q.alg := by
  unfold keyedHash
  split
  · next f h =>
    have hf := List.find?_some h
    simp only [Bool.and_eq_true, beq_iff_eq] at hf
    exact hf.2
  · simp

/-- A fold over big-endian bytes that starts at `a` shifts `a` past them. -/
theorem be_foldl (bs : List Byte) (a : Nat) :
    bs.foldl (fun v b => v * 256 + b.toNat) a = a * 256 ^ bs.length + be bs := by
  unfold be
  induction bs generalizing a with
  | nil => simp
  | cons b bs ih =>
    rw [List.foldl_cons, ih, List.foldl_cons, ih (0 * 256 + b.toNat), List.length_cons, pow_succ]
    ring

/-- The big-endian number of two sequences one after the other. -/
theorem be_append (xs ys : List Byte) : be (xs ++ ys) = be xs * 256 ^ ys.length + be ys := by
  show (xs ++ ys).foldl _ 0 = _
  rw [List.foldl_append, be_foldl ys]
  rfl

theorem be_cons (b : Byte) (ys : List Byte) : be (b :: ys) = b.toNat * 256 ^ ys.length + be ys := by
  simpa [be] using be_append [b] ys

/-- A big-endian number fits its bytes. -/
theorem be_lt (bs : List Byte) : be bs < 256 ^ bs.length := by
  induction bs with
  | nil => simp [be]
  | cons b bs ih =>
    rw [be_cons, List.length_cons, pow_succ]
    have := b.isLt
    nlinarith

/-- Byte `j` of a big-endian number is byte `j` of its sequence. -/
theorem be_digit (bs : List Byte) (j : Nat) (hj : j < bs.length) :
    be bs / 256 ^ (bs.length - 1 - j) % 256 = (bs.getD j 0#8).toNat := by
  induction bs generalizing j with
  | nil => simp at hj
  | cons b bs ih =>
    rw [be_cons]
    cases j with
    | zero =>
      simp only [List.length_cons, Nat.add_sub_cancel, Nat.sub_zero, List.getD_cons_zero]
      rw [Nat.add_comm, Nat.add_mul_div_right _ _ (by positivity), Nat.div_eq_of_lt (be_lt bs), Nat.zero_add,
        Nat.mod_eq_of_lt b.isLt]
    | succ j =>
      simp only [List.length_cons, List.getD_cons_succ] at hj ⊢
      rw [← ih j (by omega), show bs.length + 1 - 1 - (j + 1) = bs.length - 1 - j by omega]
      have e2 : bs.length = (bs.length - 1 - j) + 1 + j := by omega
      have e3 : b.toNat * 256 ^ bs.length = (b.toNat * 256 ^ j * 256) * 256 ^ (bs.length - 1 - j) := by
        conv_lhs => rw [e2, pow_add, pow_succ]
        ring
      rw [e3, Nat.add_comm, Nat.add_mul_div_right _ _ (by positivity), Nat.add_mul_mod_self_right]

/-- Every character of a rendered code is an ASCII digit (R73). -/
theorem render_digits (v dg : Nat) : ∀ c ∈ render v dg, 0x30 ≤ c.toNat ∧ c.toNat ≤ 0x39 := by
  intro c hc
  unfold render at hc
  obtain ⟨j, _, rfl⟩ := List.mem_map.1 hc
  rw [BitVec.toNat_ofNat]
  omega

/-- Shifting bits in at the low end is multiplying and adding: the accumulators' step (R43). -/
theorem shiftLeft_or_eq (x y k : Nat) (h : y < 2 ^ k) : (x <<< k) ||| y = x * 2 ^ k + y := by
  rw [Nat.shiftLeft_eq, Nat.mul_comm, Nat.two_pow_add_eq_or_of_lt h]

/-- The encoder's loop stops at fewer than 5 counted bits (R112). -/
theorem emitGroups_few (fuel acc nb : Nat) (h : nb < 5) : emitGroups fuel acc nb = ([], nb) := by
  cases fuel <;> simp [emitGroups]
  omega

/-! ### The window walk -/

/-- The walk matches exactly when one of its counters does (R152). -/
theorem windowWalk_matched (hit : Nat → Bool) (c n : Nat) :
    (windowWalk hit c n).1 = true ↔ ∃ j, j < n ∧ hit (c + j) = true := by
  induction n generalizing c with
  | zero => simp [windowWalk]
  | succ n ih =>
    unfold windowWalk
    split
    · next h => simpa using ⟨0, by omega, by simpa using h⟩
    · next h =>
      rw [ih]
      constructor
      · rintro ⟨j, hj, hh⟩
        exact ⟨j + 1, by omega, by rwa [show c + (j + 1) = c + 1 + j by omega]⟩
      · rintro ⟨j, hj, hh⟩
        cases j with
        | zero => exact absurd hh h
        | succ j => exact ⟨j, by omega, by rwa [show c + 1 + j = c + (j + 1) by omega]⟩

/-- The walk tries no more counters than it is given. -/
theorem windowWalk_count_le (hit : Nat → Bool) (c n : Nat) : (windowWalk hit c n).2 ≤ n := by
  induction n generalizing c with
  | zero => simp [windowWalk]
  | succ n ih =>
    unfold windowWalk
    split
    · simp
    · simpa using ih (c + 1)

/-- The walk tries at least one counter when it is given one (R155). -/
theorem windowWalk_count_pos (hit : Nat → Bool) (c n : Nat) (h : 0 < n) : 0 < (windowWalk hit c n).2 := by
  cases n with
  | zero => omega
  | succ n =>
    unfold windowWalk
    split <;> simp

/-- The walk that first matches `k` counters on tries `k + 1` (R155). -/
theorem windowWalk_first (hit : Nat → Bool) (c n k : Nat) (hk : k < n) (h : hit (c + k) = true)
    (hb : ∀ j, j < k → hit (c + j) = false) : windowWalk hit c n = (true, k + 1) := by
  induction k generalizing c n with
  | zero =>
    cases n with
    | zero => omega
    | succ n => unfold windowWalk; simp only [Nat.add_zero] at h; simp [h]
  | succ k ih =>
    cases n with
    | zero => omega
    | succ n =>
      have h0 := hb 0 (by omega)
      rw [Nat.add_zero] at h0
      have := ih (c + 1) n (by omega) (by rwa [show c + 1 + k = c + (k + 1) by omega])
        (fun j hj => by rw [show c + 1 + j = c + (j + 1) by omega]; exact hb (j + 1) (by omega))
      unfold windowWalk
      simp [h0, this]

/-- The walk that never matches tries all its counters (R155). -/
theorem windowWalk_none (hit : Nat → Bool) (c n : Nat) (h : ∀ j, j < n → hit (c + j) = false) :
    windowWalk hit c n = (false, n) := by
  induction n generalizing c with
  | zero => rfl
  | succ n ih =>
    have h0 := h 0 (by omega)
    rw [Nat.add_zero] at h0
    have := ih (c + 1) (fun j hj => by rw [show c + 1 + j = c + (j + 1) by omega]; exact h (j + 1) (by omega))
    unfold windowWalk
    simp [h0, this]

end Sys2Proof.Machine
end

