-- ==== Sys2Proof/Laws/PerInstr.lean ====
section
/-! SUPPORT. What holds of every command as syntax, one lemma per constructor: the opcode field of its word is its
row's opcode in Table O (R60, R63). -/

namespace Sys2Proof.Laws.Opcode

/-- Bits 79 to 72 of the command's word are the opcode of its row. -/
def Statement (i : Instr) : Prop := (encode i).extractLsb' 72 8 = i.op.code

/-- The opcode field of any word laid out by Table F1. -/
theorem field (op a : Byte) (d : Word) : (cmdWord op a d).extractLsb' 72 8 = op := by
  apply BitVec.eq_of_getLsbD_eq
  intro i hi
  have h : (cmdWord op a d).getLsbD (72 + i) = _ := BitVec.getLsbD_append (x := op ++ a) (y := d) (i := 72 + i)
  simp only [BitVec.getLsbD_extractLsb', hi, decide_true, Bool.true_and]
  rw [h, BitVec.getLsbD_append, if_neg (by omega), if_neg (by omega), show 72 + i - 64 - 8 = i by omega]

theorem init : Statement .init := field _ _ _
theorem commit : Statement .commit := field _ _ _
theorem rd (k : Reg) : Statement (.rd k) := field _ _ _
theorem cfgDigits (v : Word) : Statement (.cfgDigits v) := field _ _ _
theorem cfgPeriod (v : Word) : Statement (.cfgPeriod v) := field _ _ _
theorem cfgAlg (v : Word) : Statement (.cfgAlg v) := field _ _ _
theorem b32Push (c : Byte) : Statement (.b32Push c) := field _ _ _
theorem encClr : Statement .encClr := field _ _ _
theorem encPush (b : Byte) : Statement (.encPush b) := field _ _ _
theorem encEnd : Statement .encEnd := field _ _ _
theorem dgstClr : Statement .dgstClr := field _ _ _
theorem dgstPush (b : Byte) : Statement (.dgstPush b) := field _ _ _
theorem hotpTrunc : Statement .hotpTrunc := field _ _ _
theorem hotpCompute (c : Word) : Statement (.hotpCompute c) := field _ _ _
theorem totpCtr (t : TimeArg) : Statement (.totpCtr t) := field _ _ _
theorem totpRem (t : TimeArg) : Statement (.totpRem t) := field _ _ _
theorem totpGen (t : TimeArg) : Statement (.totpGen t) := field _ _ _
theorem totpVerify (t : TimeArg) : Statement (.totpVerify t) := field _ _ _
theorem totpWin (w : Word) : Statement (.totpWin w) := field _ _ _
theorem candClr : Statement .candClr := field _ _ _
theorem candPush (c : Byte) : Statement (.candPush c) := field _ _ _

end Sys2Proof.Laws.Opcode
end

