-- ==== Sys2Proof/Machine/Assembler.lean ====
section
/-! DEFINITION. The assembler syntax of R76 and R77: one line of text read as a command word, a pseudo-instruction or
nothing (log entry 23). It makes words; the decoder alone says which of them are commands. -/

namespace Sys2Proof.Machine

/-! ### Names -/

/-- The mnemonics of Table O (R63). -/
def opName : Op → List Char
  | .init => "INIT".toList
  | .commit => "COMMIT".toList
  | .rd => "RD".toList
  | .cfgDigits => "CFG.DIGITS".toList
  | .cfgPeriod => "CFG.PERIOD".toList
  | .cfgAlg => "CFG.ALG".toList
  | .b32Push => "B32.PUSH".toList
  | .encClr => "ENC.CLR".toList
  | .encPush => "ENC.PUSH".toList
  | .encEnd => "ENC.END".toList
  | .dgstClr => "DGST.CLR".toList
  | .dgstPush => "DGST.PUSH".toList
  | .hotpTrunc => "HOTP.TRUNC".toList
  | .hotpCompute => "HOTP.COMPUTE".toList
  | .totpCtr => "TOTP.CTR".toList
  | .totpRem => "TOTP.REM".toList
  | .totpGen => "TOTP.GEN".toList
  | .totpVerify => "TOTP.VERIFY".toList
  | .totpWin => "TOTP.WIN".toList
  | .candClr => "CAND.CLR".toList
  | .candPush => "CAND.PUSH".toList

/-- The name column of Table R (R27). -/
def regName : Reg → List Char
  | .status => "STATUS".toList
  | .err => "ERR".toList
  | .errop => "ERROP".toList
  | .errd => "ERRD".toList
  | .digits => "DIGITS".toList
  | .period => "PERIOD".toList
  | .alg => "ALG".toList
  | .window => "WINDOW".toList
  | .klen => "KLEN".toList
  | .nb => "NB".toList
  | .clen => "CLEN".toList
  | .dlen => "DLEN".toList
  | .offset => "OFFSET".toList
  | .p31 => "P31".toList
  | .codeval => "CODEVAL".toList
  | .code => "CODE".toList
  | .coden => "CODEN".toList
  | .enb => "ENB".toList

/-- Names are compared in capitals (R76: "Mnemonics are not case-sensitive"). -/
def upper (cs : List Char) : List Char := cs.map Char.toUpper

/-! ### Tokens -/

/-- What a line is cut into: a run of characters without spaces, a quoted character, a quoted text. -/
inductive Token where
  | word (cs : List Char)
  | char (c : Char)
  | text (cs : List Char)
deriving DecidableEq, Repr

/-- Where in a token the reading stands; what was read of it is held last character first. -/
inductive LexMode where
  | between
  | word (acc : List Char)
  | text (acc : List Char)
  | escape (acc : List Char)
  | quote
  | quoted (c : Char)
deriving DecidableEq, Repr

/-- The character has this ASCII code: 0x22 is the double quote, 0x27 the single quote, 0x3B the semicolon, 0x5C the
backslash. -/
def isMark (n : Nat) (c : Char) : Bool := c.toNat == n

/-- The tokens of a line up to the comment (R76: "`;` starts a comment"). -/
def tokens : List Char → LexMode → Option (List Token)
  | [], .between => some []
  | [], .word acc => some [.word acc.reverse]
  | [], .text _ | [], .escape _ | [], .quote | [], .quoted _ => none
  | c :: cs, .between =>
    if isMark 0x3B c then some []
    else if c.isWhitespace then tokens cs .between
    else if isMark 0x22 c then tokens cs (.text [])
    else if isMark 0x27 c then tokens cs .quote
    else tokens cs (.word [c])
  | c :: cs, .word acc =>
    if isMark 0x3B c then some [.word acc.reverse]
    else if c.isWhitespace then (tokens cs .between).map (.word acc.reverse :: ·)
    else tokens cs (.word (c :: acc))
  | c :: cs, .text acc =>
    if isMark 0x22 c then (tokens cs .between).map (.text acc.reverse :: ·)
    else if isMark 0x5C c then tokens cs (.escape acc)
    else tokens cs (.text (c :: acc))
  | c :: cs, .escape acc => if c = 'n' then tokens cs (.text (Char.ofNat 0x0A :: acc)) else none
  | c :: cs, .quote => tokens cs (.quoted c)
  | c :: cs, .quoted d => if isMark 0x27 c then (tokens cs .between).map (.char d :: ·) else none

/-! ### Operands -/

/-- The value of a hexadecimal digit. -/
def digitValue (c : Char) : Option Nat :=
  if '0' ≤ c ∧ c ≤ '9' then some (c.toNat - 0x30)
  else if 'a' ≤ c ∧ c ≤ 'f' then some (c.toNat - 0x61 + 10)
  else if 'A' ≤ c ∧ c ≤ 'F' then some (c.toNat - 0x41 + 10)
  else none

/-- A run of digits of a base, read on from `v`. -/
def digitsFrom (base : Nat) : List Char → Nat → Option Nat
  | [], v => some v
  | c :: cs, v =>
    match digitValue c with
    | some k => if k < base then digitsFrom base cs (base * v + k) else none
    | none   => none

/-- R76: "Numbers are decimal or `0x` hexadecimal"; one that 64 bits cannot hold is none. -/
def number (cs : List Char) : Option Word :=
  let n := match cs with
    | [] | ['0', 'x'] => none
    | '0' :: 'x' :: ds => digitsFrom 16 ds 0
    | ds => digitsFrom 10 ds 0
  match n with
  | some k => if k < 2 ^ 64 then some (BitVec.ofNat 64 k) else none
  | none   => none

/-- A character as its ASCII byte (R70, R76). -/
def asciiByte (c : Char) : Option Byte := if c.toNat < 128 then some (BitVec.ofNat 8 c.toNat) else none

/-- A quoted text as its ASCII bytes. -/
def asciiBytes (cs : List Char) : Option (List Byte) := cs.mapM asciiByte

/-- A character operand: "a number or … one ASCII character in single quotes" (R76). -/
def charOperand : Token → Option Word
  | .word cs => number cs
  | .char c  => (asciiByte c).map (·.setWidth 64)
  | .text _  => none

/-- An operand that is a byte of a pseudo-instruction's list; that it may be a quoted character is the model's choice
(DESIGN CHOICE, log entry 23). -/
def byteOperand (t : Token) : Option Byte :=
  match charOperand t with
  | some d => if d.toNat < 256 then some (d.setWidth 8) else none
  | none   => none

/-- A byte of `DGST.HEX`, two hexadecimal digits as R77's example programs write them. -/
def hexOperand : Token → Option Byte
  | .word [a, b] => (digitsFrom 16 [a, b] 0).map (BitVec.ofNat 8 ·)
  | .word _ | .char _ | .text _ => none

/-- A number operand. -/
def numberOperand : Token → Option Word
  | .word cs => number cs
  | .char _ | .text _ => none

/-- An algorithm operand: a number, or `SHA1`, `SHA256`, `SHA512` for 0, 1, 2 (R76). -/
def algOperand : Token → Option Word
  | .word cs =>
    if upper cs = "SHA1".toList then some 0#64
    else if upper cs = "SHA256".toList then some 1#64
    else if upper cs = "SHA512".toList then some 2#64
    else number cs
  | .char _ | .text _ => none

/-- The register operand of `RD`: a name of Table R, or a number (R76). -/
def regOperand : Token → Option Byte
  | .word cs =>
    match Reg.all.find? fun k => regName k == upper cs with
    | some k => some k.num
    | none => match number cs with
      | some d => if d.toNat < 256 then some (d.setWidth 8) else none
      | none   => none
  | .char _ | .text _ => none

/-- A time operand: `clock`, `ms:<number>` or `s:<number>` (R76), as the fields `a` and `d`. -/
def timeOperand : Token → Option (Byte × Word)
  | .word cs =>
    match upper cs with
    | ['C', 'L', 'O', 'C', 'K'] => some (0#8, 0#64)
    | 'M' :: 'S' :: ':' :: _ => (number (cs.drop 3)).map (1#8, ·)
    | 'S' :: ':' :: _ => (number (cs.drop 2)).map (2#8, ·)
    | _ => none
  | .char _ | .text _ => none

/-- The fields `a` and `d` a command's operands give (R76, Table O). R76 lets a character operand (`B32.PUSH`, `CAND.PUSH`)
be a quoted character and is silent on byte operands; that `ENC.PUSH` and `DGST.PUSH` read one too is the model's choice
(DESIGN CHOICE, log entry 23). -/
def operandFields (o : Op) (ts : List Token) : Option (Byte × Word) :=
  match o with
  | .init | .commit | .encClr | .encEnd | .dgstClr | .hotpTrunc | .candClr =>
    match ts with
    | [] => some (0#8, 0#64)
    | _ :: _ => none
  | .rd => match ts with
    | [t] => (regOperand t).map (·, 0#64)
    | _ => none
  | .cfgAlg => match ts with
    | [t] => (algOperand t).map (0#8, ·)
    | _ => none
  | .cfgDigits | .cfgPeriod | .hotpCompute | .totpWin => match ts with
    | [t] => (numberOperand t).map (0#8, ·)
    | _ => none
  | .b32Push | .encPush | .dgstPush | .candPush => match ts with
    | [t] => (charOperand t).map (0#8, ·)
    | _ => none
  | .totpCtr | .totpRem | .totpGen | .totpVerify => match ts with
    | [t] => timeOperand t
    | _ => none

/-! ### Lines -/

/-- What one line says. -/
inductive Line where
  | blank
  | word (w : PortWord)
  | pseudo (p : Pseudo)
deriving DecidableEq, Repr

/-- The pseudo-instruction of a name and its operands (R77); the optional ones are given from the left. -/
def pseudoLine (name : List Char) (ts : List Token) : Option Pseudo :=
  if name = "B32.STR".toList then
    match ts with
    | [.text cs] => (asciiBytes cs).map .b32Str
    | _ => none
  else if name = "CAND.STR".toList then
    match ts with
    | [.text cs] => (asciiBytes cs).map .candStr
    | _ => none
  else if name = "DGST.HEX".toList then (ts.mapM hexOperand).map .dgstHex
  else if name = "ENC.STR".toList then (ts.mapM byteOperand).map .encStr
  else if name = "CONSTRUCT".toList then
    match ts with
    | [.text cs] => (asciiBytes cs).map (.construct · none none none)
    | [.text cs, d] => do
      let text ← asciiBytes cs
      let digits ← numberOperand d
      some (.construct text (some digits) none none)
    | [.text cs, d, p] => do
      let text ← asciiBytes cs
      let digits ← numberOperand d
      let period ← numberOperand p
      some (.construct text (some digits) (some period) none)
    | [.text cs, d, p, a] => do
      let text ← asciiBytes cs
      let digits ← numberOperand d
      let period ← numberOperand p
      let alg ← algOperand a
      some (.construct text (some digits) (some period) (some alg))
    | _ => none
  else if name = "GENERATE".toList then
    match ts with
    | [] => some .generate
    | [t] => (numberOperand t).map .generateAt
    | _ => none
  else if name = "GENERATEAT".toList then
    match ts with
    | [t] => (numberOperand t).map .generateAt
    | _ => none
  else if name = "VERIFY".toList then
    match ts with
    | [.text cs] => (asciiBytes cs).map (.verify · none)
    | [.text cs, t] => do
      let text ← asciiBytes cs
      let w ← numberOperand t
      some (.verify text (some w))
    | _ => none
  else if name = "GETCOUNTER".toList then (if ts = [] then some .getCounter else none)
  else if name = "GETTIMEREMAINING".toList then (if ts = [] then some .getTimeRemaining else none)
  else none

/-- One line of text (R76): a mnemonic of Table O with its operands, a pseudo-instruction of R77, or nothing but a
comment. A line that is none of these is not read. -/
def assemble (line : List Char) : Option Line :=
  match tokens line .between with
  | none => none
  | some [] => some .blank
  | some (.word m :: ts) =>
    match Op.all.find? fun o => opName o == upper m with
    | some o => (operandFields o ts).map fun f => .word (cmdWord o.code f.1 f.2)
    | none => (pseudoLine (upper m) ts).map .pseudo
  | some (.char _ :: _) | some (.text _ :: _) => none

end Sys2Proof.Machine
end

