-- ==== Sys2Proof/Tests/Slice0.lean ====
section
/-! SUPPORT. The model's own tests: ill-formed terms, one word per command written out from Table O, one or two steps
per command with the answers 95_test_vectors.md gives, and a witness for the hypotheses of every obligation. -/

namespace Sys2Proof.Tests

open Sys2Proof Sys2Proof.Machine Sys2Proof.Spec

/-! ### Ill-formed terms: each check of WellFormed refuses one -/

theorem test_wf_no_encoder_clr : Instr.wellFormed false .encClr = false := by decide
theorem test_wf_no_encoder_push : Instr.wellFormed false (.encPush 0x66#8) = false := by decide
theorem test_wf_no_encoder_end : Instr.wellFormed false .encEnd = false := by decide
theorem test_wf_no_encoder_register : Instr.wellFormed false (.rd .enb) = false := by decide
theorem test_wf_encoder_register : Instr.wellFormed true (.rd .enb) = true := by decide

/-! ### One word per command, from Table O (R60, R63, R67), as `op a d` -/

theorem test_decode_init : decodeWord true 0x0100_0000000000000000#80 = .ok (.init) := by decide
theorem test_decode_commit : decodeWord true 0x0200_0000000000000000#80 = .ok (.commit) := by decide
theorem test_decode_rd : decodeWord true 0x030F_0000000000000000#80 = .ok (.rd .code) := by decide
theorem test_decode_cfg_digits : decodeWord true 0x1000_0000000000000008#80 = .ok (.cfgDigits 8#64) := by decide
theorem test_decode_cfg_period : decodeWord true 0x1100_000000000000003C#80 = .ok (.cfgPeriod 60#64) := by decide
theorem test_decode_cfg_alg : decodeWord true 0x1200_0000000000000002#80 = .ok (.cfgAlg 2#64) := by decide
theorem test_decode_b32_push : decodeWord true 0x2000_0000000000000047#80 = .ok (.b32Push 0x47#8) := by decide
theorem test_decode_enc_clr : decodeWord true 0x2800_0000000000000000#80 = .ok (.encClr) := by decide
theorem test_decode_enc_push : decodeWord true 0x2900_0000000000000066#80 = .ok (.encPush 0x66#8) := by decide
theorem test_decode_enc_end : decodeWord true 0x2A00_0000000000000000#80 = .ok (.encEnd) := by decide
theorem test_decode_dgst_clr : decodeWord true 0x3000_0000000000000000#80 = .ok (.dgstClr) := by decide
theorem test_decode_dgst_push : decodeWord true 0x3100_00000000000000FF#80 = .ok (.dgstPush 0xFF#8) := by decide
theorem test_decode_hotp_trunc : decodeWord true 0x3200_0000000000000000#80 = .ok (.hotpTrunc) := by decide
theorem test_decode_hotp_compute : decodeWord true 0x3300_FFFFFFFFFFFFFFFF#80 = .ok (.hotpCompute 0xFFFFFFFFFFFFFFFF#64) := by decide
theorem test_decode_totp_ctr : decodeWord true 0x4000_0000000000000000#80 = .ok (.totpCtr .clock) := by decide
theorem test_decode_totp_rem : decodeWord true 0x4101_000000000000EA5F#80 = .ok (.totpRem (.ms 59999#64)) := by decide
theorem test_decode_totp_gen : decodeWord true 0x4202_000000000000003B#80 = .ok (.totpGen (.sec 59#64)) := by decide
theorem test_decode_totp_verify : decodeWord true 0x4302_0000000000000059#80 = .ok (.totpVerify (.sec 89#64)) := by decide
theorem test_decode_totp_win : decodeWord true 0x4400_0000000000000005#80 = .ok (.totpWin 5#64) := by decide
theorem test_decode_cand_clr : decodeWord true 0x4500_0000000000000000#80 = .ok (.candClr) := by decide
theorem test_decode_cand_push : decodeWord true 0x4600_0000000000000032#80 = .ok (.candPush 0x32#8) := by decide

/-! The malformed words of 95_test_vectors.md section 2.4, and the register and encoder rules of R66 -/

theorem test_decode_reserved_opcode : decodeWord true 0x4700_0000000000000000#80 = .error (.reservedOpcode 0x47#8) := by
  decide
theorem test_decode_operand_bits : decodeWord true 0x0100_0000000000000001#80 = .error (.operandBits .init) := by decide
theorem test_decode_byte_bits : decodeWord true 0x2000_0000000000000147#80 = .error (.operandBits .b32Push) := by decide
theorem test_decode_selector : decodeWord true 0x4003_0000000000000000#80 = .error (.reservedSelector .totpCtr) := by decide
theorem test_decode_clock : decodeWord true 0x4000_0000000000000005#80 = .error (.clockOperand .totpCtr) := by decide
theorem test_decode_selector_bits : decodeWord true 0x4004_0000000000000000#80 = .error (.operandBits .totpCtr) := by decide
theorem test_decode_register : decodeWord true 0x0312_0000000000000000#80 = .error (.reservedRegister 0x12#8) := by decide
theorem test_decode_no_encoder : decodeWord false 0x2900_0000000000000066#80 = .error (.reservedOpcode 0x29#8) := by decide
theorem test_decode_table_word : decodeTableWord 80 0x4202_000000000000003B = some (.totpGen (.sec 59#64)) := by decide

/-! ### Small states -/

/-- What a command leaves behind, if it completes. -/
def ran (i : Instr) (s : State) : Option State :=
  match exec i s with
  | .next t => some t
  | .fault _ => none
  | .refused _ => none

/-- What a step leaves behind, if it completes. -/
def stepped (s : State) : Option State :=
  match step s with
  | .next t => some t
  | .fault _ => none
  | .refused _ => none

/-- The answer of a command. -/
def said (i : Instr) (s : State) : Option Response := (ran i s).bind (·.resp)

/-- The ASCII bytes of "12345678901234567890" (95_test_vectors.md V2). -/
def key20 : List Byte :=
  [0x31#8, 0x32#8, 0x33#8, 0x34#8, 0x35#8, 0x36#8, 0x37#8, 0x38#8, 0x39#8, 0x30#8] ++
  [0x31#8, 0x32#8, 0x33#8, 0x34#8, 0x35#8, 0x36#8, 0x37#8, 0x38#8, 0x39#8, 0x30#8]

/-- The digest of counter 0 under `key20`, SHA1 (95_test_vectors.md section 4.1). -/
def digest0 : List Byte :=
  [0xCC#8, 0x93#8, 0xCF#8, 0x18#8, 0x50#8, 0x8D#8, 0x94#8, 0x93#8, 0x4C#8, 0x64#8,
   0xB6#8, 0x5D#8, 0x8B#8, 0xA7#8, 0x66#8, 0x7F#8, 0xB7#8, 0xCD#8, 0xE4#8, 0xB0#8]

/-- The digest of counter 1 under `key20`, SHA1 (95_test_vectors.md section 4.1). -/
def digest1 : List Byte :=
  [0x75#8, 0xA4#8, 0x8A#8, 0x19#8, 0xD4#8, 0xCB#8, 0xE1#8, 0x00#8, 0x64#8, 0x4E#8,
   0x8A#8, 0xC1#8, 0x39#8, 0x7E#8, 0xEA#8, 0x74#8, 0x7A#8, 0x2D#8, 0x33#8, 0xAB#8]

/-- The digest of counter 2 under `key20`, SHA1 (95_test_vectors.md section 4.1). -/
def digest2 : List Byte :=
  [0x0B#8, 0xAC#8, 0xB7#8, 0xFA#8, 0x08#8, 0x2F#8, 0xEF#8, 0x30#8, 0x78#8, 0x22#8,
   0x11#8, 0x93#8, 0x8B#8, 0xC1#8, 0xC5#8, 0xE7#8, 0x04#8, 0x16#8, 0xFF#8, 0x44#8]

/-- READY with `key20`, six digits, and the keyed hash known at the counters 0, 1 and 2. -/
def instance20 : State :=
  { State.reset with
    phase := .ready
    key := key20
    params := { Params.default with
      hmacKnown := [⟨.sha1, key20, be8 0#64, digest0⟩, ⟨.sha1, key20, be8 1#64, digest1⟩,
        ⟨.sha1, key20, be8 2#64, digest2⟩] } }

/-- "287082", the code of counter 1 (95_test_vectors.md section 4.1). -/
def text287082 : List Byte := [0x32#8, 0x38#8, 0x37#8, 0x30#8, 0x38#8, 0x32#8]

/-- After a bad character (95_test_vectors.md P3). -/
def failedState : State :=
  { State.reset with phase := .failed, perr := true, err := 1#8, errop := 0x20#8, errd := 0x31#64 }

/-- The state `s` with this digest staged. -/
def staged (g : List Byte) (s : State) : State := { s with dgst := g }

/-! ### One or two steps per command -/

/-- P3: `INIT` leaves FAILED and keeps PERR. -/
theorem test_init :
    (ran .init failedState).map (fun t => (t.phase, t.perr, t.err, t.errd)) = some (.build, true, 0#8, 0#64) := by decide

/-- section 2.3: `INIT` in READY destroys the key. -/
theorem test_init_forgets :
    (ran .init instance20).map (fun t => (t.phase, t.key, t.digits)) = some (.build, [], 6#4) := by decide

/-- P1: `COMMIT` answers KLEN = 20 and drops the trailing bits. -/
theorem test_commit :
    (ran .commit { State.reset with key := key20, acc := 1#12, nb := 2#4 }).map (fun t => (t.phase, t.acc, t.nb, t.resp)) =
    some (.ready, 0#12, 0#4, some ⟨.ok, 0#8, 0x14#64⟩) := by decide

/-- section 2.3: `COMMIT` in READY is refused. -/
theorem test_commit_ready :
    said .commit instance20 = some ⟨.wrongPhase, 0#8, 0#64⟩ := by decide

/-- section 2.3: `RD 5` after reset. -/
theorem test_rd_period :
    said (.rd .period) State.reset = some ⟨.ok, 0#8, 30#64⟩ := by decide

/-- section 2.6: READY, PERR, CANDOVF. -/
theorem test_rd_status :
    said (.rd .status) { instance20 with perr := true, candovf := true } = some ⟨.ok, 0#8, 0x0D#64⟩ := by decide

/-- R24, U14: a byte pushed after a truncation leaves the latches and clears `CODEV`, and they read as zeros. -/
theorem test_rd_unlatched :
    ((ran .hotpTrunc (staged [0x12#8, 0x34#8, 0x56#8, 0x10#8] State.reset)).bind (ran (.dgstPush 0#8))).map
      (fun t => (t.p31, t.coden, said (.rd .p31) t, said (.rd .code) t)) =
    some (0x12345610#31, 6#4, some ⟨.ok, 0#8, 0#64⟩, some ⟨.ok, 0#8, 0#64⟩) := by decide

/-- P4's truncation: `RD CODE` answers "000042" with `n` = 6, `RD P31` 0x2A. -/
theorem test_rd_latched :
    (ran .hotpTrunc (staged ([0#8, 0#8, 0#8, 0x2A#8] ++ List.replicate 16 0#8) State.reset)).map
      (fun t => (said (.rd .code) t, said (.rd .p31) t)) =
    some (some ⟨.ok, 6#8, 0x3030303034320000#64⟩, some ⟨.ok, 0#8, 0x2A#64⟩) := by decide

/-- P3: the bad value is never written. -/
theorem test_cfg_digits :
    (ran (.cfgDigits 9#64) State.reset).map (fun t => (t.digits, t.err, t.errop, t.errd, t.resp)) =
    some (6#4, 2#8, 0x10#8, 9#64, some ⟨.invalidConfiguration, 0#8, 0#64⟩) := by decide

/-- section 2.3. -/
theorem test_cfg_digits_ok :
    (ran (.cfgDigits 8#64) State.reset).map (·.digits) = some 8#4 := by decide

/-- section 2.3: 0 is the one illegal period. -/
theorem test_cfg_period :
    (ran (.cfgPeriod 0#64) State.reset).map (fun t => (t.period, t.phase, t.errop)) = some (30#64, .failed, 0x11#8) := by decide

/-- section 2.3. -/
theorem test_cfg_period_max :
    (ran (.cfgPeriod 0xFFFFFFFFFFFFFFFF#64) State.reset).map (·.period) = some 0xFFFFFFFFFFFFFFFF#64 := by decide

/-- section 2.3. -/
theorem test_cfg_alg :
    (ran (.cfgAlg 2#64) State.reset).map (·.alg) = some .sha512 := by decide

/-- section 2.3. -/
theorem test_cfg_alg_bad :
    (ran (.cfgAlg 3#64) State.reset).map (fun t => (t.alg, t.err, t.errd)) = some (.sha1, 2#8, 3#64) := by decide

/-- R91: after `G`, `E` emits 0x31 and leaves two bits. -/
theorem test_b32_push :
    (ran (.b32Push 0x45#8) { State.reset with acc := 0b00110#12, nb := 5#4 }).map (fun t => (t.key, t.acc, t.nb, t.resp)) =
    some ([0x31#8], 0#12, 2#4, some ⟨.ok, 1#8, 0#64⟩) := by decide

/-- section 2.1, `GEZ1`: the emitted byte is dropped. -/
theorem test_b32_push_bad :
    (ran (.b32Push 0x31#8) { State.reset with key := [0x31#8], acc := 0b0011001#12, nb := 7#4 }).map
    (fun t => (t.phase, t.key, t.nb, t.errd)) = some (.failed, [], 0#4, 0x31#64) := by decide

/-- R111. -/
theorem test_enc_clr :
    (ran .encClr { State.reset with eacc := 0b110#12, enb := 3#4 }).map (fun t => (t.eacc, t.enb, t.resp)) =
    some (0#12, 0#4, some ⟨.ok, 0#8, 0#64⟩) := by decide

/-- 41_base32_encoder.md section 4, step 2: "ZX". -/
theorem test_enc_push :
    (ran (.encPush 0x6F#8) { State.reset with eacc := 0b110#12, enb := 3#4 }).map (fun t => (t.eacc, t.enb, t.resp)) =
    some (1#12, 1#4, some ⟨.ok, 2#8, 0x5A58000000000000#64⟩) := by decide

/-- R110, R112: one character, in FAILED too. -/
theorem test_enc_push_failed :
    said (.encPush 0x66#8) failedState = some ⟨.ok, 1#8, 0x4D00000000000000#64⟩ := by decide

/-- R113: "Y". -/
theorem test_enc_end :
    (ran .encEnd { State.reset with eacc := 0b110#12, enb := 3#4 }).map (fun t => (t.eacc, t.enb, t.resp)) =
    some (0#12, 0#4, some ⟨.ok, 1#8, 0x5900000000000000#64⟩) := by decide

/-- P5: nothing left. -/
theorem test_enc_end_empty :
    said .encEnd State.reset = some ⟨.ok, 0#8, 0#64⟩ := by decide

/-- R121: the last code goes too. -/
theorem test_dgst_clr :
    (ran .dgstClr { staged digest1 State.reset with codev := true, coden := 6#4, p31 := 42#31, dgstovf := true }).map
    (fun t => (t.dgst, t.dgstovf, t.codev, t.coden, t.p31)) = some ([], false, false, 0#4, 0#31) := by decide

/-- P4: the twentieth push answers 20 and clears CODEV. -/
theorem test_dgst_push :
    (ran (.dgstPush 0#8) { staged (List.replicate 19 1#8) State.reset with codev := true }).map
    (fun t => (t.dgst.getLast?, t.codev, t.resp)) = some (some 0#8, false, some ⟨.ok, 0#8, 20#64⟩) := by decide

/-- section 3: the 65th push. -/
theorem test_dgst_push_full :
    (ran (.dgstPush 0#8) (staged (List.replicate 64 1#8) State.reset)).map (fun t => (t.dgst.length, t.dgstovf, t.perr, t.resp)) =
    some (64, true, true, some ⟨.bufferOverflow, 0#8, 0#64⟩) := by decide

/-- R126 and section 3: "872921". -/
theorem test_hotp_trunc :
    (ran .hotpTrunc (staged [0x1F#8, 0x86#8, 0x98#8, 0x69#8, 0x0E#8, 0x02#8, 0xCA#8, 0x16#8, 0x61#8, 0x85#8,
    0x50#8, 0xEF#8, 0x7F#8, 0x19#8, 0xDA#8, 0x8E#8, 0x94#8, 0x5B#8, 0x55#8, 0x5A#8] State.reset)).map
    (fun t => (t.offset, t.p31, t.codeval, t.resp)) =
    some (10#4, 1357872921#31, 872921#27, some ⟨.ok, 6#8, 0x3837323932310000#64⟩) := by decide

/-- section 3: 1 + 4 > 4. -/
theorem test_hotp_trunc_short :
    said .hotpTrunc (staged [0x12#8, 0x34#8, 0x56#8, 0x01#8] State.reset) = some ⟨.badDigest, 0#8, 0#64⟩ := by decide

/-- section 4.1: "287082", one request. -/
theorem test_hotp_compute :
    (ran (.hotpCompute 1#64) instance20).map (fun t => (t.dgst, t.offset, t.resp, t.reqs)) =
    some (digest1, 11#4, some ⟨.ok, 6#8, 0x3238373038320000#64⟩, [⟨.sha1, key20, [0#8, 0#8, 0#8, 0#8, 0#8, 0#8, 0#8, 1#8]⟩]) := by decide

/-- V1: "94287082". -/
theorem test_hotp_compute_eight :
    said (.hotpCompute 1#64) { instance20 with digits := 8#4 } = some ⟨.ok, 8#8, 0x3934323837303832#64⟩ := by decide

/-- section 2.5. -/
theorem test_totp_ctr :
    said (.totpCtr (.sec 60#64)) instance20 = some ⟨.ok, 0#8, 2#64⟩ := by decide

/-- section 2.5: the clock. -/
theorem test_totp_ctr_clock :
    said (.totpCtr .clock) { instance20 with nowMs := 1111111109999#64 } = some ⟨.ok, 0#8, 37037036#64⟩ := by decide

/-- section 2.5: PERIOD at a boundary. -/
theorem test_totp_rem :
    said (.totpRem (.sec 30#64)) instance20 = some ⟨.ok, 0#8, 30#64⟩ := by decide

/-- section 2.5: the largest millisecond time. -/
theorem test_totp_rem_max :
    said (.totpRem (.ms 18446744073709551615#64)) instance20 = some ⟨.ok, 0#8, 9#64⟩ := by decide

/-- P1 with six digits: the code is latched. -/
theorem test_totp_gen :
    (ran (.totpGen (.ms 59999#64)) instance20).map (fun t => (t.p31, t.codev, t.coden, t.resp)) =
    some (1094287082#31, true, 6#4, some ⟨.ok, 6#8, 0x3238373038320000#64⟩) := by decide

/-- P2: " 287082\n" at 59 s, two requests. -/
theorem test_totp_verify :
    (ran (.totpVerify (.sec 59#64)) { instance20 with cand := 0x20#8 :: text287082 ++ [0x0A#8] }).map
    (fun t => (t.resp, t.reqs.length, t.codev)) = some (some ⟨.ok, 0#8, 1#64⟩, 2, false) := by decide

/-- section 4.4: "28708", three requests. -/
theorem test_totp_verify_short :
    (ran (.totpVerify (.sec 59#64)) { instance20 with cand := text287082.take 5 }).map
    (fun t => (t.resp, t.reqs.length)) = some (some ⟨.ok, 0#8, 0#64⟩, 3) := by decide

/-- R147. -/
theorem test_totp_win :
    (ran (.totpWin 5#64) instance20).map (·.window) = some 5#64 := by decide

/-- R148. -/
theorem test_cand_clr :
    (ran .candClr { instance20 with cand := text287082, candovf := true }).map (fun t => (t.cand, t.candovf)) = some ([], false) := by decide

/-- P2: the sixth character. -/
theorem test_cand_push :
    (ran (.candPush 0x32#8) { instance20 with cand := text287082.take 5 }).map (fun t => (t.cand, t.resp)) =
    some (text287082, some ⟨.ok, 0#8, 6#64⟩) := by decide

/-- section 2.6: the 33rd push. -/
theorem test_cand_push_full :
    (ran (.candPush 0x32#8) { instance20 with cand := List.replicate 32 0x31#8 }).map
    (fun t => (t.cand.length, t.candovf, t.resp)) = some (32, true, some ⟨.bufferOverflow, 0#8, 0#64⟩) := by decide

/-- section 2.3: `10 00 0000000000000008` runs as the first command. -/
theorem test_step_word :
    (stepped (State.reset.withFetchWord 80 0x1000_0000000000000008)).map (fun t => (t.digits, t.host)) = some (8#4, []) := by decide

/-- section 2.4: `40 03 0` in BUILD answers 3. -/
theorem test_step_illegal :
    (stepped (State.reset.withFetchWord 80 0x4003_0000000000000000)).map (fun t => (t.resp, t.perr)) =
    some (some ⟨.illegalCommand, 0#8, 0#64⟩, true) := by decide

/-- R220. -/
theorem test_step_reset :
    (stepped { failedState with host := [.reset] }).map (fun t => (t.phase, t.perr, t.err, t.resp)) = some (.build, false, 0#8, none) := by decide

/-! ### The written form: the lines the spec writes (R76, R77, R78) -/

theorem test_line_time : assemble "TOTP.GEN s:59 ; the vector".toList = some (.word 0x4202_000000000000003B#80) := by decide
theorem test_line_clock : assemble "totp.gen clock".toList = some (.word 0x4200_0000000000000000#80) := by decide
theorem test_line_character : assemble "B32.PUSH 'G'".toList = assemble "B32.PUSH 0x47".toList := by decide
theorem test_line_register : assemble "RD CODE".toList = some (.word 0x030F_0000000000000000#80) := by decide
theorem test_line_algorithm : assemble "CFG.ALG SHA512".toList = some (.word 0x1200_0000000000000002#80) := by decide
theorem test_line_construct : assemble "construct \"GEZ\" 8 30 SHA1".toList =
    some (.pseudo (.construct [0x47#8, 0x45#8, 0x5A#8] (some 8#64) (some 30#64) (some 0#64))) := by decide
theorem test_line_digest : assemble "DGST.HEX 00 2A".toList = some (.pseudo (.dgstHex [0#8, 0x2A#8])) := by decide
theorem test_line_comment : assemble "   ; nothing".toList = some .blank := by decide

/-- 40_base32_decoder.md section 5: the text `GEZDGNBV` is the encoding of `12345`. -/
theorem test_enc_str : pseudoText (.encStr [0x31#8, 0x32#8, 0x33#8, 0x34#8, 0x35#8]) State.reset =
    [0x47#8, 0x45#8, 0x5A#8, 0x44#8, 0x47#8, 0x4E#8, 0x42#8, 0x56#8] := by decide

/-- R77: the expansion stops at the first status that is not OK. -/
theorem test_construct_stops : (Pseudo.construct [0x47#8] (some 9#64) none none).expand.length = 4 ∧
    (performAnswers (Pseudo.construct [0x47#8] (some 9#64) none none).expand State.reset).length = 2 := by decide

/-! ### Witnesses: for every obligation with hypotheses, a state and operands that meet them together -/

theorem witness_ResetInputIsInitAndClearsPerrAndEncoder : { failedState with host := [.reset] }.host = .reset :: [] := rfl

theorem witness_ResetInputLeavesTheResetState : { instance20 with host := [.reset] }.host = .reset :: [] := rfl

/-- The four clauses: a word that decodes, one that does not, nothing presented, a well-formed command. -/
theorem witness_StepRunsTheDecodedCommand :
    (∃ s w now i, State.host s = [.command w now] ∧ decodeWord s.params.hasEnc w = .ok i) ∧
    (∃ s w now e, State.host s = [.command w now] ∧ decodeWord s.params.hasEnc w = .error e) ∧
    State.reset.host = [] ∧ (Instr.rd .enb).wellFormed State.reset.params.hasEnc = true :=
  ⟨⟨{ State.reset with host := [.command 0x0100_0000000000000000#80 0#64] }, _, _, .init, rfl, rfl⟩,
   ⟨{ State.reset with host := [.command 0x4700_0000000000000000#80 0#64] }, _, _, .reservedOpcode 0x47#8, rfl, rfl⟩,
   rfl, rfl⟩

theorem witness_DecodeOfEncodeIsTheCommand :
    (Instr.totpVerify (.sec 0xFFFFFFFFFFFFFFFF#64)).wellFormed false = true ∧ Instr.encEnd.wellFormed true = true := by decide

theorem witness_DecodedWordIsTheEncodingOfItsCommand :
    decodeWord false 0x4302_FFFFFFFFFFFFFFFF#80 = .ok (.totpVerify (.sec 0xFFFFFFFFFFFFFFFF#64)) := by decide

/-- A legal word; and illegal ones at the edges of the opcodes, the selectors, the registers and the byte operands. -/
theorem witness_IllegalWordsAreRefusedAndOnlyThey :
    wordLegal true 0x03#8 17#8 0#64 = true ∧ wordLegal true 0x03#8 18#8 0#64 = false ∧
    wordLegal false 0x03#8 17#8 0#64 = false ∧ wordLegal true 0x00#8 0#8 0#64 = false ∧
    wordLegal true 0x46#8 0#8 255#64 = true ∧ wordLegal true 0x46#8 0#8 256#64 = false ∧
    wordLegal true 0x43#8 2#8 0#64 = true ∧ wordLegal true 0x43#8 3#8 0#64 = false ∧
    wordLegal true 0x43#8 0#8 0#64 = true ∧ wordLegal true 0x43#8 0#8 1#64 = false := by decide

/-- A response whose status is not OK. -/
theorem witness_EveryCommandIsAnswered : said (.cfgDigits 5#64) State.reset = some ⟨.invalidConfiguration, 0#8, 0#64⟩ := by
  decide

theorem witness_CommitEndsTheConstruction : State.reset.phase = .build := rfl

/-- With the encoder register 17 may be named; without it another may; no code latched over old latches; the greatest length that 64 bits hold. -/
theorem witness_RdAnswersTableR :
    (Reg.enb = .enb → State.reset.params.hasEnc = true) ∧ (Reg.code = .enb → false = true) ∧
    { instance20 with p31 := 42#31, coden := 6#4 }.codev = false ∧ 2 ^ 64 - 1 < 2 ^ 64 := by decide

theorem witness_ConfigurationIsCheckedAndWritten : State.reset.phase = .build := rfl

/-- A refused cell, an accepted cell, an illegal word, and the words of the two cells. -/
theorem witness_PhasesAcceptTableA :
    Instr.commit.wellFormed instance20.params.hasEnc = true ∧ tableA .commit instance20.phase = false ∧
    tableA .hotpCompute instance20.phase = true ∧
    wordLegal instance20.params.hasEnc 0x20#8 1#8 0x31#64 = false ∧
    tableO 0x20#8 = some .b32Push ∧ wordLegal instance20.params.hasEnc 0x20#8 0#8 0x31#64 = true ∧
    tableA .b32Push instance20.phase = false ∧ tableA .b32Push State.reset.phase = true := by decide

theorem witness_B32PushDecodesOneCharacter : State.reset.phase = .build := rfl

/-- A legal whitespace set, and a letter's value. -/
theorem witness_AlphabetIsTableA32 : Params.default.wsLegal = true ∧ (25#5).toNat < 26 := by decide

/-- The two ends of `ENB`, with the encoder. -/
theorem witness_EncoderEmitsFiveBitGroups :
    State.reset.enb.toNat ≤ 4 ∧ { State.reset with eacc := 15#12, enb := 4#4 }.enb.toNat ≤ 4 ∧
    State.reset.params.hasEnc = true := by decide

/-- The three clauses: an encoder command, another command, and two states that share only the encoder's registers. -/
theorem witness_EncoderIsIndependentOfTheInstance :
    (∃ t, exec (.encPush 0x66#8) State.reset = .next t) ∧
    ((Instr.candPush 0x31#8).op ≠ .encClr ∧ (Instr.candPush 0x31#8).op ≠ .encPush ∧
      (Instr.candPush 0x31#8).op ≠ .encEnd ∧ Instr.candPush 0x31#8 ≠ .rd .enb ∧
      ∃ t, exec (.candPush 0x31#8) State.reset = .next t) ∧
    State.reset.params.hasEnc = true ∧ failedState.params.hasEnc = true ∧ State.reset.eacc = failedState.eacc ∧
    State.reset.enb = failedState.enb :=
  ⟨⟨_, rfl⟩, ⟨by decide, by decide, by decide, by decide, _, rfl⟩, rfl, rfl, rfl, rfl⟩

/-- The state after reset is a fresh decoder. -/
theorem reset_is_fresh : decoderFresh State.reset := ⟨rfl, rfl, rfl, rfl⟩

/-- A text of 103 characters, the longest that fits `KMAX` = 64; and a text with a bad character in it. -/
theorem witness_DecoderGivesWholeBytesOfTheText :
    (decoderFresh State.reset ∧ (∀ c ∈ List.replicate 103 0x41#8, cls State.reset.params.ws c ≠ .invalid) ∧
      keyRoom State.reset (5 * (symbolsOf State.reset.params.ws (List.replicate 103 0x41#8)).length / 8)) ∧
    (decoderFresh State.reset ∧
      (∀ c ∈ [0x47#8, 0x45#8, 0x5A#8], cls State.reset.params.ws c ≠ .invalid) ∧
      keyRoom State.reset (5 * (symbolsOf State.reset.params.ws [0x47#8, 0x45#8, 0x5A#8]).length / 8) ∧
      cls State.reset.params.ws 0x31#8 = .invalid) :=
  ⟨⟨reset_is_fresh, by decide, fun _ h => by cases h; decide⟩,
   ⟨reset_is_fresh, by decide, fun _ h => by (cases h; decide), by decide⟩⟩

/-- The 104th character; a push at exactly eight counted bits onto a full key; an unbounded key. -/
theorem witness_FullKeyBufferFailsTheConstruction :
    (decoderFresh State.reset ∧ State.reset.params.kmax = some 64 ∧
      (∀ b ∈ List.replicate 103 0x41#8 ++ [0x41#8], ∃ v, cls State.reset.params.ws b = .sym v) ∧
      5 * (List.replicate 103 0x41#8).length / 8 ≤ 64 ∧ 64 < 5 * ((List.replicate 103 0x41#8).length + 1) / 8) ∧
    (let s := { State.reset with key := List.replicate 64 0#8, nb := 3#4 }
     s.phase = .build ∧ cls s.params.ws 0x41#8 = .sym 0#5 ∧ 8 ≤ s.nb.toNat + 5 ∧ s.params.kmax = some s.key.length) ∧
    { Params.default with kmax := none }.kmax = none :=
  ⟨⟨reset_is_fresh, rfl, fun b hb => ⟨0#5, by
      have : b = 0x41#8 := by simpa using hb
      subst this; decide⟩, by decide, by decide⟩, by decide, rfl⟩

theorem witness_EncoderSpellsTheBitsOfTheBytes : failedState.params.hasEnc = true := rfl

/-- A byte sequence as long as the key buffer. -/
theorem witness_DecodeOfEncodedBytesIsTheBytes :
    decoderFresh State.reset ∧ State.reset.params.hasEnc = true ∧ State.reset.params.wsLegal = true ∧
    keyRoom State.reset (List.replicate 64 0xA5#8).length :=
  ⟨reset_is_fresh, rfl, by decide, fun _ h => by cases h; decide⟩

/-- The longest text that fits the key buffer with all three values given at an end of their ranges; and no text. -/
theorem witness_ConstructBuildsTheInstance :
    ((∀ c ∈ List.replicate 103 0x41#8, cls failedState.params.ws c ≠ .invalid) ∧
      keyRoom failedState (5 * (symbolsOf failedState.params.ws (List.replicate 103 0x41#8)).length / 8) ∧
      (∀ v, some 8#64 = some v → v.toNat = 6 ∨ v.toNat = 7 ∨ v.toNat = 8) ∧
      (∀ v, some 1#64 = some v → v.toNat ≠ 0) ∧ (∀ v, some 2#64 = some v → v.toNat ≤ 2)) ∧
    ((∀ c ∈ ([] : List Byte), cls State.reset.params.ws c ≠ .invalid) ∧
      keyRoom State.reset (5 * (symbolsOf State.reset.params.ws []).length / 8)) :=
  ⟨⟨by decide, fun _ h => by (cases h; decide), fun v h => by (cases h; decide), fun v h => by (cases h; decide),
    fun v h => by (cases h; decide)⟩, by decide, fun _ h => by (cases h; decide)⟩

theorem witness_DigestIsStagedByteByByte : State.reset.phase ≠ .failed := by decide

/-- The shortest digest that can be truncated (section 3: 12 34 56 10). -/
theorem witness_HotpTruncTruncatesTheStagedDigest :
    (staged [0x12#8, 0x34#8, 0x56#8, 0x10#8] State.reset).phase ≠ .failed ∧
    ¬ badDigest (staged [0x12#8, 0x34#8, 0x56#8, 0x10#8] State.reset) := by decide

theorem witness_HotpComputeGivesTheCodeOfTheCounter : instance20.phase = .ready := rfl

/-- Offset 0 in four bytes, and offset 15 in nineteen. -/
theorem witness_DynamicTruncationIsExact :
    dtOffset [0x12#8, 0x34#8, 0x56#8, 0x10#8] + 4 ≤ 4 ∧
    dtOffset (List.replicate 18 1#8 ++ [0xFF#8]) + 4 ≤ (List.replicate 18 1#8 ++ [0xFF#8]).length := by decide

theorem witness_RenderedCodeIsTheDecimalNumber : (999999 : Nat) < 10 ^ 6 ∧ (99999999 : Nat) < 10 ^ 8 := by decide

/-- The legal digit counts furthest apart, and the shortest digest with its four bytes. -/
theorem witness_ShorterCodeIsTheEndOfTheLonger :
    (6 : Nat) < 8 ∧ (8 : Nat) ≤ 8 ∧ 1 ≤ [0x12#8, 0x34#8, 0x56#8, 0x10#8].length ∧
    dtOffset [0x12#8, 0x34#8, 0x56#8, 0x10#8] + 4 ≤ [0x12#8, 0x34#8, 0x56#8, 0x10#8].length := by decide

theorem witness_StringsArePackedFirstByteHighest :
    (List.replicate 8 0x39#8).length ≤ 8 ∧ ([] : List Byte).length ≤ 8 := by decide

theorem witness_TimeQueriesAnswerCounterAndRemainder : instance20.phase = .ready := rfl

theorem witness_TotpGenGivesTheCodeOfTheTime : instance20.phase = .ready := rfl

theorem witness_TotpVerifyIsTheWindowLoop : instance20.phase = .ready ∧ instance20.candovf = false := by decide

theorem witness_VerifyAcceptsExactlyTheWindow : instance20.phase = .ready ∧ instance20.candovf = false := by decide

/-- The candidate whose first match is the code of counter 1, at 59 s (section 4.4). -/
def verifying : State := { instance20 with cand := text287082 }

/-- No match in the window, with an empty candidate; and a first match at counter 1. -/
theorem witness_VerifyRequestsAscendToTheFirstMatch :
    (verifying.phase = .ready ∧ verifying.candovf = false ∧ ∃ t, exec (.totpVerify (.sec 59#64)) verifying = .next t) ∧
    (∀ c, c ≤ 2 → codeAt instance20 c ≠ trim instance20.params.ws instance20.cand) ∧
    (codeAt verifying 1 = trim verifying.params.ws verifying.cand ∧
      codeAt verifying 0 ≠ trim verifying.params.ws verifying.cand) := by
  refine ⟨⟨rfl, rfl, _, rfl⟩, ?_, by decide⟩
  intro c hc
  have : c = 0 ∨ c = 1 ∨ c = 2 := by omega
  rcases this with h | h | h <;> subst h <;> decide

theorem witness_WindowAndCandidateAreStaged : State.reset.phase ≠ .failed := by decide

theorem witness_MillisecondDivisionsCompose : instance20.phase = .ready := rfl

theorem witness_TimeRemainingReachesTheNextCounter :
    instance20.phase = .ready ∧ instance20.period ≠ 0#64 ∧ (30#64).toNat % instance20.period.toNat = 0 := by decide

/-- The four clauses at the boundary 29 to 30, and just before it. -/
theorem witness_CounterStepsAtPeriodBoundaries :
    instance20.phase = .ready ∧ instance20.period ≠ 0#64 ∧ 29 + 1 < 2 ^ 64 ∧
    (29 + 1) % instance20.period.toNat = 0 ∧ (28 + 1) % instance20.period.toNat ≠ 0 ∧
    resultOf (.totpRem (.sec (BitVec.ofNat 64 28))) instance20 = 2 ∧
    resultOf (.totpRem (.sec (BitVec.ofNat 64 29))) instance20 = 1 := by decide

/-- The instance of the spec's vector keeps every register invariant. -/
theorem instance20_inv : Inv instance20 := by
  constructor <;> first | decide | exact fun k h => Option.some.inj h ▸ (by decide)

theorem witness_GeneratedCodeVerifies :
    Inv instance20 ∧ instance20.phase = .ready ∧ instance20.params.wsNoDigit = true ∧
    ∃ g, exec (.totpGen (.sec 59#64)) instance20 = .next g :=
  ⟨instance20_inv, rfl, by decide, _, rfl⟩

/-- Too short, and a letter at the right length (section 2.6). -/
theorem witness_MalformedCandidateNeverMatches :
    (instance20.phase = .ready ∧ instance20.candovf = false ∧
      (trim instance20.params.ws (text287082.take 5)).length ≠ instance20.digits.toNat) ∧
    ∃ c ∈ trim instance20.params.ws (text287082.take 5 ++ [0x61#8]), c.toNat < 0x30 ∨ 0x39 < c.toNat := by
  refine ⟨by decide, 0x61#8, by decide, by decide⟩

/-- A fatal answer and a refusal. -/
theorem witness_ErrorsArePrecise :
    (∃ t st, step (offer 0x10#8 0#8 9#64 State.reset) = .next t ∧ t.lastStatus = some st ∧ isFatal st = true) ∧
    (∃ t st, step (offer 0x46#8 0#8 0x31#64 { State.reset with cand := List.replicate 32 0x31#8 }) = .next t ∧
      t.lastStatus = some st ∧ isRefusal st = true) :=
  ⟨⟨_, .invalidConfiguration, rfl, rfl, rfl⟩, ⟨_, .bufferOverflow, rfl, rfl, rfl⟩⟩

/-- Outside BUILD; a fatal error; a refusal with a flag set before; `INIT`; another command; reset. -/
theorem witness_ErrorRegistersAreWrittenOnlyByFatalErrors :
    (instance20.phase ≠ .build ∧ ∃ t, exec (.cfgDigits 9#64) instance20 = .next t ∧ t.lastStatus = some .wrongPhase) ∧
    (∃ t, exec (.cfgDigits 9#64) State.reset = .next t ∧ t.lastStatus = some .invalidConfiguration) ∧
    (∃ t, exec (.totpVerify .clock) { instance20 with candovf := true, dgstovf := true } = .next t ∧
      t.lastStatus = some .bufferOverflow) ∧
    (∃ t, exec .init failedState = .next t ∧ t.lastStatus = some .ok) ∧
    (∃ t, exec (.rd .err) failedState = .next t ∧ t.lastStatus = some .ok) ∧
    (∃ t, step { failedState with host := [.reset] } = .next t) :=
  ⟨⟨by decide, _, rfl, rfl⟩, ⟨_, rfl, rfl⟩, ⟨_, rfl, rfl⟩, ⟨_, rfl, rfl⟩, ⟨_, rfl, rfl⟩, ⟨_, rfl⟩⟩

theorem witness_PhaseChangesOnlyAsR13Says :
    (∃ t, exec .commit State.reset = .next t ∧ t.lastStatus = some .ok) ∧
    (∃ t, exec (.cfgAlg 3#64) State.reset = .next t ∧ t.lastStatus = some .invalidConfiguration) ∧
    (failedState.phase = .failed ∧ ∃ t, exec (.rd .status) failedState = .next t ∧ t.lastStatus = some .ok) ∧
    (∃ t, step { failedState with host := [.reset] } = .next t) :=
  ⟨⟨_, rfl, rfl⟩, ⟨_, rfl, rfl⟩, ⟨rfl, _, rfl, rfl⟩, ⟨_, rfl⟩⟩

theorem witness_ReadyInstanceIsImmutable :
    instance20.phase = .ready ∧ (Instr.totpWin 0#64).op ≠ .init ∧ (Instr.totpWin 0#64).op ≠ .encClr ∧
    (Instr.totpWin 0#64).op ≠ .encPush ∧ (Instr.totpWin 0#64).op ≠ .encEnd ∧
    ∃ t, exec (.totpWin 0#64) instance20 = .next t :=
  ⟨rfl, by decide, by decide, by decide, by decide, _, rfl⟩

/-- Two states that share the instance and differ in the latches, the digest and PERR; with the same staging. -/
theorem witness_AnswersDependOnTheInstanceAlone :
    (let s' := { instance20 with dgst := digest1, p31 := 42#31, perr := true }
     sameInstance instance20 s' ∧ instance20 ≠ s' ∧ instance20.cand = s'.cand ∧ instance20.window = s'.window ∧
      instance20.candovf = s'.candovf) :=
  ⟨⟨rfl, rfl, rfl, rfl, rfl, rfl, rfl, rfl⟩, by decide, rfl, rfl, rfl⟩

/-- Another key, digest, candidate and accumulators of the same lengths, under a command that may not show them; and
under a keyed command, with the key kept. -/
theorem witness_KeyMaterialIsNotReadable :
    (List.replicate 20 0x7F#8).length = verifying.key.length ∧ ([] : List Byte).length = verifying.dgst.length ∧
    (List.replicate 6 0x7F#8).length = verifying.cand.length ∧
    ¬ ((Instr.rd .klen).op = .hotpCompute ∨ (Instr.rd .klen).op = .totpGen ∨ (Instr.rd .klen).op = .totpVerify) ∧
    (Instr.rd .klen).op ≠ .hotpTrunc ∧ ¬ ((Instr.rd .klen).op = .encPush ∨ (Instr.rd .klen).op = .encEnd) ∧
    List.replicate 20 0x7F#8 ≠ verifying.key := by decide

theorem witness_OnlyClockCommandsReadTheClock :
    Instr.totpCtr (.ms 0#64) ≠ .totpCtr .clock ∧ Instr.totpCtr (.ms 0#64) ≠ .totpRem .clock ∧
    Instr.totpCtr (.ms 0#64) ≠ .totpGen .clock ∧ Instr.totpCtr (.ms 0#64) ≠ .totpVerify .clock := by decide

theorem witness_RunTimeCommandsAreTotal :
    instance20.phase = .ready ∧ (Instr.totpVerify .clock).op = .totpVerify ∧
    { instance20 with candovf := true }.phase = .ready ∧ { instance20 with candovf := true }.candovf = true := by decide

/-- Each flag set and cleared; the two commands held off; reset. -/
theorem witness_FlagsAreSetAndClearedAsR14Says :
    (∃ t, exec (.candPush 0#8) { State.reset with cand := List.replicate 32 0#8 } = .next t ∧
      t.lastStatus = some .bufferOverflow) ∧
    (∃ t, exec (.dgstPush 0#8) (staged (List.replicate 64 0#8) State.reset) = .next t ∧
      t.lastStatus = some .bufferOverflow) ∧
    (∃ t, exec .dgstClr State.reset = .next t ∧ t.lastStatus = some .ok) ∧
    (∃ t, exec (.hotpCompute 0#64) instance20 = .next t ∧ t.lastStatus = some .ok) ∧
    ({ instance20 with candovf := true }.phase = .ready ∧ { instance20 with candovf := true }.candovf = true) ∧
    ({ State.reset with dgstovf := true }.phase ≠ .failed ∧ { State.reset with dgstovf := true }.dgstovf = true) ∧
    ∃ t, step { failedState with host := [.reset] } = .next t :=
  ⟨⟨_, rfl, rfl⟩, ⟨_, rfl, rfl⟩, ⟨_, rfl, rfl⟩, ⟨_, rfl, rfl⟩, by decide, by decide, ⟨_, rfl⟩⟩

theorem witness_BuffersAreWrittenAsTableBSays :
    (∃ t, exec (.totpGen (.sec 59#64)) instance20 = .next t ∧ t.lastStatus = some .ok) ∧
    (∃ t, exec (.b32Push 0x31#8) { State.reset with key := [0x31#8] } = .next t ∧
      t.lastStatus = some .invalidEncoding) :=
  ⟨⟨_, rfl, rfl⟩, ⟨_, rfl, rfl⟩⟩

/-- A keyed command; a `TOTP.VERIFY` not answered OK. -/
theorem witness_OnlyThreeCommandsAskTheKeyedHash :
    (∃ t, exec (.hotpCompute 1#64) instance20 = .next t ∧ t.reqs ≠ []) ∧
    (∃ t, exec (.totpVerify .clock) State.reset = .next t ∧ t.answeredOk = false) :=
  ⟨⟨_, rfl, by decide⟩, ⟨_, rfl, rfl⟩⟩

/-- The vector's instance with a generation presented keeps the invariant and steps. -/
theorem witness_EveryStepKeepsTheInvariant :
    Inv (offer 0x42#8 2#8 59#64 instance20) ∧ ∃ t, step (offer 0x42#8 2#8 59#64 instance20) = .next t :=
  ⟨by constructor <;> first | decide | exact fun k h => Option.some.inj h ▸ (by decide), _, rfl⟩

end Sys2Proof.Tests
end

/-! Proofs. What one command can do, said once, and the statements about the registers, flags and phases. -/

namespace Sys2Proof.Machine

open Sys2Proof.Spec

/-! ### What a command can do -/

/-- The fatal errors of Table X: the command, in the state `s`, ends the construction with the error. -/
inductive Failing (s : State) : Instr → FatalError → Prop
  | digits (v : Word) (hv : ¬ (v = 6#64 ∨ v = 7#64 ∨ v = 8#64)) : Failing s (.cfgDigits v) .invalidConfiguration
  | period : Failing s (.cfgPeriod 0#64) .invalidConfiguration
  | alg (v : Word) (hv : algOfCode? v = none) : Failing s (.cfgAlg v) .invalidConfiguration
  | character (c : Byte) (hc : cls s.params.ws c = .invalid) : Failing s (.b32Push c) .invalidEncoding
  | keyFull (c : Byte) (v : BitVec 5) (hc : cls s.params.ws c = .sym v) (hn : 8 ≤ s.nb.toNat + 5)
      (hfull : s.params.kmax = some s.key.length) : Failing s (.b32Push c) .keyOverflow

/-- The refusals of Table X: the command is refused for the cause, after the flag of a full buffer was set in `s'`. -/
inductive Refused (s : State) : Instr → RefusalCause → State → Prop
  | absent (i : Instr) (hi : i.wellFormed s.params.hasEnc = false) : Refused s i .illegalCommand s
  | phase (i : Instr) (hi : tableA i.op s.phase = false) : Refused s i .wrongPhase s
  | candidateCut (x : TimeArg) (hc : s.candovf = true) : Refused s (.totpVerify x) .bufferOverflow s
  | digestUnusable (hd : digestUsable s = false) : Refused s .hotpTrunc .badDigest s
  | candidateFull (c : Byte) (hfull : s.params.cmax = some s.cand.length) :
      Refused s (.candPush c) .bufferOverflow { s with candovf := true }
  | digestFull (b : Byte) (hfull : s.dgst.length = dmax) :
      Refused s (.dgstPush b) .bufferOverflow { s with dgstovf := true }

/-- The whole next state of a command that answers OK, one case per command and branch of its pseudocode. -/
inductive Accepted (s : State) : Instr → State → Prop
  | init : Accepted s .init (respond 0#8 0#64 (beginConstruction s))
  | commit :
      Accepted s .commit
        (respond 0#8 (lengthWord s.key.length) { s with acc := 0#12, nb := 0#4, phase := .ready })
  | rd (k : Reg) (hk : k.present s.params.hasEnc = true) : Accepted s (.rd k) (respond (readCount k s) (readReg k s) s)
  | cfgDigits (v : Word) (hv : v = 6#64 ∨ v = 7#64 ∨ v = 8#64) :
      Accepted s (.cfgDigits v) (respond 0#8 0#64 { s with digits := v.setWidth 4 })
  | cfgPeriod (v : Word) (hv : v ≠ 0#64) : Accepted s (.cfgPeriod v) (respond 0#8 0#64 { s with period := v })
  | cfgAlg (v : Word) (a : Alg) (hv : algOfCode? v = some a) :
      Accepted s (.cfgAlg v) (respond 0#8 0#64 { s with alg := a })
  | b32Skip (c : Byte) (hc : cls s.params.ws c = .skip) : Accepted s (.b32Push c) (respond 0#8 0#64 s)
  | b32Collect (c : Byte) (v : BitVec 5) (hc : cls s.params.ws c = .sym v) (hn : s.nb.toNat + 5 < 8) :
      Accepted s (.b32Push c)
        (respond 0#8 0#64
          { s with
            acc := BitVec.ofNat 12 (s.acc.toNat * 2 ^ 5 + v.toNat)
            nb  := BitVec.ofNat 4 (s.nb.toNat + 5) })
  | b32Emit (c : Byte) (v : BitVec 5) (hc : cls s.params.ws c = .sym v) (hn : 8 ≤ s.nb.toNat + 5)
      (hroom : s.params.kmax ≠ some s.key.length) :
      Accepted s (.b32Push c)
        (respond 1#8 0#64
          { s with
            key := s.key ++ [BitVec.ofNat 8 ((s.acc.toNat * 2 ^ 5 + v.toNat) / 2 ^ (s.nb.toNat + 5 - 8))]
            acc := BitVec.ofNat 12 ((s.acc.toNat * 2 ^ 5 + v.toNat) % 2 ^ (s.nb.toNat + 5 - 8))
            nb  := BitVec.ofNat 4 (s.nb.toNat + 5 - 8) })
  | encClr (henc : s.params.hasEnc = true) :
      Accepted s .encClr (respond 0#8 0#64 { s with eacc := 0#12, enb := 0#4 })
  | encPush (b : Byte) (henc : s.params.hasEnc = true) (acc nb : Nat) (out : List Byte × Nat)
      (hacc : acc = s.eacc.toNat * 2 ^ 8 + b.toNat) (hnb : nb = s.enb.toNat + 8) (hout : out = emitGroups nb acc nb) :
      Accepted s (.encPush b)
        (respond (BitVec.ofNat 8 out.1.length) (packString out.1)
          { s with eacc := BitVec.ofNat 12 (acc % 2 ^ out.2), enb := BitVec.ofNat 4 out.2 })
  | encEndEmpty (henc : s.params.hasEnc = true) (hn : s.enb = 0#4) : Accepted s .encEnd (respond 0#8 0#64 s)
  | encEndRest (henc : s.params.hasEnc = true) (hn : s.enb ≠ 0#4) :
      Accepted s .encEnd
        (respond 1#8 (packString [symChar (BitVec.ofNat 5 (s.eacc.toNat * 2 ^ (5 - s.enb.toNat)))])
          { s with eacc := 0#12, enb := 0#4 })
  | dgstClr :
      Accepted s .dgstClr
        (respond 0#8 0#64
          { s with
            dgst := [], dgstovf := false, codev := false, offset := 0#4, p31 := 0#31, codeval := 0#27
            code := #v[0#8, 0#8, 0#8, 0#8, 0#8, 0#8, 0#8, 0#8], coden := 0#4 })
  | dgstPush (b : Byte) (hroom : s.dgst.length ≠ dmax) :
      Accepted s (.dgstPush b)
        (respond 0#8 (lengthWord (s.dgst.length + 1)) { s with dgst := s.dgst ++ [b], codev := false })
  | hotpTrunc (hd : digestUsable s = true) (x : Truncation) (hx : x = dt s.dgst s.digits.toNat) :
      Accepted s .hotpTrunc (respond (s.digits.setWidth 8) (packString x.code) (latch x s))
  | hotpCompute (c : Word) : Accepted s (.hotpCompute c) (computeAt c s)
  | totpCtr (x : TimeArg) :
      Accepted s (.totpCtr x) (respond 0#8 (BitVec.ofNat 64 (counterAt s.period (resolveTime x s))) s)
  | totpRem (x : TimeArg) :
      Accepted s (.totpRem x) (respond 0#8 (BitVec.ofNat 64 (timeRemaining s.period (resolveTime x s))) s)
  | totpGen (x : TimeArg) :
      Accepted s (.totpGen x) (computeAt (BitVec.ofNat 64 (counterAt s.period (resolveTime x s))) s)
  | totpVerify (x : TimeArg) (hc : s.candovf = false) (now low : Nat) (walk : Bool × Nat)
      (hnow : now = counterAt s.period (resolveTime x s)) (hlow : low = windowLow now s.window.toNat)
      (hwalk : walk = windowWalk (candidateMatches s (trim s.params.ws s.cand)) low
        (windowHigh now s.window.toNat + 1 - low)) :
      Accepted s (.totpVerify x)
        (respondAfter ((List.range walk.2).map fun j => hotpRequest s (BitVec.ofNat 64 (low + j)))
          0#8 (if walk.1 then 1#64 else 0#64) s)
  | totpWin (w : Word) : Accepted s (.totpWin w) (respond 0#8 0#64 { s with window := w })
  | candClr : Accepted s .candClr (respond 0#8 0#64 { s with cand := [], candovf := false })
  | candPush (c : Byte) (hroom : s.params.cmax ≠ some s.cand.length) :
      Accepted s (.candPush c) (respond 0#8 (lengthWord (s.cand.length + 1)) { s with cand := s.cand ++ [c] })

/-- The three ways a command ends (R190): a fatal error out of BUILD, a refusal, an answer OK in a phase of Table A. -/
inductive Effect (s : State) (i : Instr) : State → Prop
  | fatal {e : FatalError} (hp : s.phase = .build) (h : Failing s i e) :
      Effect s i (raiseFatal e i.op i.fields.2 s)
  | refused {e : RefusalCause} {s' : State} (h : Refused s i e s') : Effect s i (raiseRefusal e s')
  | accepted {t : State} (hp : tableA i.op s.phase = true) (h : Accepted s i t) : Effect s i t

/-- The check of the commands accepted in BUILD and READY is their row of Table A (R177). -/
theorem notFailed_eq (p : Phase) : p.notFailed = (p == .build || p == .ready) := by cases p <;> rfl

/-- A phase check adds the refusal WrongPhase to what its body can do. -/
theorem effect_requirePhase {s body : State} {i : Instr} {b : Bool} (hb : b = tableA i.op s.phase)
    (h : tableA i.op s.phase = true → Effect s i body) : Effect s i (requirePhase b body s) := by
  obtain ⟨hp, he⟩ | ⟨hp, he⟩ := requirePhase_cases b body s <;> rw [he]
  · exact h (hb ▸ hp)
  · exact .refused (.phase i (hb ▸ hp))

/-- An encoder check adds the refusal IllegalCommand of a block without the unit (R66). -/
theorem effect_requireEncoder {s body : State} {i : Instr} (hi : i.wellFormed s.params.hasEnc = s.params.hasEnc)
    (h : s.params.hasEnc = true → Effect s i body) : Effect s i (requireEncoder body s) := by
  cases henc : s.params.hasEnc with
  | true => simpa [henc] using h henc
  | false => simpa [henc] using Effect.refused (.absent i (hi.trans henc))

/-- R94, R96: a symbol is collected, completes a key byte, or finds the key buffer full. -/
theorem effect_pushSymbol {s : State} {c : Byte} {v : BitVec 5} (hp : s.phase = .build)
    (hc : cls s.params.ws c = .sym v) : Effect s (.b32Push c) (pushSymbol c v s) := by
  have ha : tableA (Instr.b32Push c).op s.phase = true := by simp [Instr.op, tableA, hp]
  simp only [pushSymbol]
  split
  · next hn =>
    split
    · next hfull => exact .fatal hp (.keyFull c v hc hn ((bufferFull_iff _ _).1 hfull))
    · next hroom => exact .accepted ha (.b32Emit c v hc hn fun h => hroom ((bufferFull_iff _ _).2 h))
  · next hn => exact .accepted ha (.b32Collect c v hc (by omega))

/-- What one command can do, in any state. -/
theorem exec_next_effect (i : Instr) (s : State) : ∃ t, exec i s = .next t ∧ Effect s i t := by
  cases i with
  | init => exact ⟨_, rfl, .accepted rfl .init⟩
  | commit => exact ⟨_, rfl, effect_requirePhase rfl fun hp => .accepted hp .commit⟩
  | rd k =>
    refine ⟨_, rfl, ?_⟩
    split
    · next hk => exact .accepted rfl (.rd k hk)
    · next hk => exact .refused (.absent _ (by simpa [Instr.wellFormed, Instr.op, Op.present] using hk))
  | cfgDigits v =>
    refine ⟨_, rfl, effect_requirePhase rfl fun hp => ?_⟩
    split
    · next hv => exact .accepted hp (.cfgDigits v hv)
    · next hv => exact .fatal (by simpa [Instr.op, tableA] using hp) (.digits v hv)
  | cfgPeriod v =>
    refine ⟨_, rfl, effect_requirePhase rfl fun hp => ?_⟩
    split
    · next hv => subst hv; exact .fatal (by simpa [Instr.op, tableA] using hp) .period
    · next hv => exact .accepted hp (.cfgPeriod v hv)
  | cfgAlg v =>
    refine ⟨_, rfl, effect_requirePhase rfl fun hp => ?_⟩
    split
    · next a ha => exact .accepted hp (.cfgAlg v a ha)
    · next ha => exact .fatal (by simpa [Instr.op, tableA] using hp) (.alg v ha)
  | b32Push c =>
    refine ⟨_, rfl, effect_requirePhase rfl fun hp => ?_⟩
    have hbuild : s.phase = .build := by simpa [Instr.op, tableA] using hp
    split
    · next hc => exact .accepted hp (.b32Skip c hc)
    · next hc => exact .fatal hbuild (.character c hc)
    · next v hc => exact effect_pushSymbol hbuild hc
  | encClr => exact ⟨_, rfl, effect_requireEncoder (Bool.and_true _) fun henc => .accepted rfl (.encClr henc)⟩
  | encPush b =>
    exact ⟨_, rfl, effect_requireEncoder (Bool.and_true _) fun henc =>
      .accepted rfl (.encPush b henc _ _ _ rfl rfl rfl)⟩
  | encEnd =>
    refine ⟨_, rfl, effect_requireEncoder (Bool.and_true _) fun henc => ?_⟩
    split
    · next hn => exact .accepted rfl (.encEndEmpty henc hn)
    · next hn => exact .accepted rfl (.encEndRest henc hn)
  | dgstClr => exact ⟨_, rfl, effect_requirePhase (notFailed_eq _) fun hp => .accepted hp .dgstClr⟩
  | dgstPush b =>
    refine ⟨_, rfl, effect_requirePhase (notFailed_eq _) fun hp => ?_⟩
    split
    · next hfull => exact .refused (.digestFull b hfull)
    · next hroom => exact .accepted hp (.dgstPush b hroom)
  | hotpTrunc =>
    refine ⟨_, rfl, effect_requirePhase (notFailed_eq _) fun hp => ?_⟩
    split
    · next hd => exact .accepted hp (.hotpTrunc hd _ rfl)
    · next hd => exact .refused (.digestUnusable (Bool.eq_false_of_not_eq_true hd))
  | hotpCompute c => exact ⟨_, rfl, effect_requirePhase rfl fun hp => .accepted hp (.hotpCompute c)⟩
  | totpCtr x => exact ⟨_, rfl, effect_requirePhase rfl fun hp => .accepted hp (.totpCtr x)⟩
  | totpRem x => exact ⟨_, rfl, effect_requirePhase rfl fun hp => .accepted hp (.totpRem x)⟩
  | totpGen x => exact ⟨_, rfl, effect_requirePhase rfl fun hp => .accepted hp (.totpGen x)⟩
  | totpVerify x =>
    refine ⟨_, rfl, effect_requirePhase rfl fun hp => ?_⟩
    split
    · next hc => exact .refused (.candidateCut x hc)
    · next hc => exact .accepted hp (.totpVerify x (Bool.eq_false_of_not_eq_true hc) _ _ _ rfl rfl rfl)
  | totpWin w => exact ⟨_, rfl, effect_requirePhase (notFailed_eq _) fun hp => .accepted hp (.totpWin w)⟩
  | candClr => exact ⟨_, rfl, effect_requirePhase (notFailed_eq _) fun hp => .accepted hp .candClr⟩
  | candPush c =>
    refine ⟨_, rfl, effect_requirePhase (notFailed_eq _) fun hp => ?_⟩
    split
    · next hfull => exact .refused (.candidateFull c ((bufferFull_iff _ _).1 hfull))
    · next hroom => exact .accepted hp (.candPush c fun h => hroom ((bufferFull_iff _ _).2 h))

/-- What the next state of a command can be. -/
theorem exec_effect {i : Instr} {s t : State} (h : exec i s = .next t) : Effect s i t := by
  obtain ⟨u, hu, he⟩ := exec_next_effect i s
  obtain rfl : u = t := by simpa [hu] using h
  exact he

/-! ### Statuses -/

@[simp] theorem isFatal_fatal (e : FatalError) : isFatal e.status = true := by cases e <;> rfl

@[simp] theorem isRefusal_fatal (e : FatalError) : isRefusal e.status = false := by cases e <;> rfl

@[simp] theorem isFatal_refusal (e : RefusalCause) : isFatal e.status = false := by cases e <;> rfl

@[simp] theorem isRefusal_refusal (e : RefusalCause) : isRefusal e.status = true := by cases e <;> rfl

@[simp] theorem isFatal_ok : isFatal .ok = false := rfl

@[simp] theorem isRefusal_ok : isRefusal .ok = false := rfl

@[simp] theorem fatal_status_ne_ok (e : FatalError) : e.status ≠ .ok := by cases e <;> decide

@[simp] theorem refusal_status_ne_ok (e : RefusalCause) : e.status ≠ .ok := by cases e <;> decide

@[simp] theorem fatal_status_ne_bufferOverflow (e : FatalError) : e.status ≠ .bufferOverflow := by cases e <;> decide

@[simp] theorem refusal_status_eq_bufferOverflow (e : RefusalCause) :
    e.status = .bufferOverflow ↔ e = .bufferOverflow := by cases e <;> decide

/-- Table E numbers the fatal errors 1, 2 and 5. -/
theorem fatal_code_cases (e : FatalError) : e.status.code = 1#8 ∨ e.status.code = 2#8 ∨ e.status.code = 5#8 := by
  cases e <;> decide

/-! ### A fatal error's and a refusal's command -/

theorem Failing.op_ne_init {s : State} {i : Instr} {e : FatalError} (h : Failing s i e) : i.op ≠ .init := by
  cases h <;> exact Op.noConfusion

/-- Only `RD` and the encoder's commands can be absent from a block (R66). -/
theorem op_of_absent {i : Instr} {hasEnc : Bool} (h : i.wellFormed hasEnc = false) :
    i.op = .rd ∨ i.op = .encClr ∨ i.op = .encPush ∨ i.op = .encEnd := by
  cases i with
  | rd | encClr | encPush | encEnd => simp [Instr.op]
  | _ => cases h

/-- `INIT` is never refused. -/
theorem Refused.op_ne_init {s s' : State} {i : Instr} {e : RefusalCause} (h : Refused s i e s') : i.op ≠ .init := by
  cases h with
  | absent i hi => intro ho; simpa [ho] using op_of_absent hi
  | phase i hi => intro ho; simp [ho, tableA] at hi
  | candidateCut | digestUnusable | candidateFull | digestFull => exact Op.noConfusion

/-- `COMMIT` is refused outside BUILD only. -/
theorem Refused.not_commit_in_build {s s' : State} {i : Instr} {e : RefusalCause} (h : Refused s i e s') :
    ¬ (i.op = .commit ∧ s.phase = .build) := by
  rintro ⟨ho, hp⟩
  cases h with
  | absent i hi => simpa [ho] using op_of_absent hi
  | phase i hi => simp [ho, hp, tableA] at hi
  | candidateCut | digestUnusable | candidateFull | digestFull => cases ho

/-- Before its record of R193 a refusal changes only the flag of a buffer found full. -/
theorem Refused.frame {s s' : State} {i : Instr} {e : RefusalCause} (h : Refused s i e s') :
    s' = { s with
      candovf := if i.op = .candPush ∧ e = .bufferOverflow then true else s.candovf
      dgstovf := if i.op = .dgstPush ∧ e = .bufferOverflow then true else s.dgstovf } := by
  cases h <;> simp [Instr.op]

/-! ### What an accepted command leaves of the flags, the error registers and the phase -/

theorem Accepted.lastStatus {s t : State} {i : Instr} (h : Accepted s i t) : t.lastStatus = some .ok := by
  cases h <;> rfl

theorem Accepted.phase {s t : State} {i : Instr} (h : Accepted s i t) :
    t.phase = if i.op = .init then .build else if i.op = .commit then .ready else s.phase := by
  cases h <;> rfl

theorem Accepted.errors {s t : State} {i : Instr} (h : Accepted s i t) (hi : i.op ≠ .init) :
    t.err = s.err ∧ t.errop = s.errop ∧ t.errd = s.errd := by
  cases h with
  | init => exact absurd rfl hi
  | _ => exact ⟨rfl, rfl, rfl⟩

theorem Accepted.init_eq {s t : State} {i : Instr} (h : Accepted s i t) (hi : i.op = .init) :
    t = respond 0#8 0#64 (beginConstruction s) := by
  cases h with
  | init => rfl
  | _ => cases hi

theorem Accepted.perr {s t : State} {i : Instr} (h : Accepted s i t) : t.perr = s.perr := by
  cases h <;> rfl

theorem Accepted.candovf {s t : State} {i : Instr} (h : Accepted s i t) :
    t.candovf = if i.op = .candClr ∨ i.op = .init then false else s.candovf := by
  cases h <;> rfl

theorem Accepted.dgstovf {s t : State} {i : Instr} (h : Accepted s i t) :
    t.dgstovf = if i.op = .dgstClr ∨ i.op = .init ∨ i.op = .hotpCompute ∨ i.op = .totpGen then false
      else s.dgstovf := by
  cases h <;> rfl

theorem Accepted.codev {s t : State} {i : Instr} (h : Accepted s i t) :
    t.codev = if i.op = .hotpTrunc ∨ i.op = .hotpCompute ∨ i.op = .totpGen then true
      else if i.op = .dgstClr ∨ i.op = .dgstPush ∨ i.op = .init then false else s.codev := by
  cases h <;> rfl

/-- Table A: what FAILED accepts (R196). -/
theorem accepted_in_failed {o : Op} (h : tableA o .failed = true) :
    o = .init ∨ o = .rd ∨ o = .encClr ∨ o = .encPush ∨ o = .encEnd := by
  revert h; cases o <;> decide

/-- How a command ends, by the status it answers. -/
theorem exec_ends {i : Instr} {s t : State} {st : Status} (h : exec i s = .next t) (hst : t.lastStatus = some st) :
    (∃ e : FatalError, st = e.status ∧ s.phase = .build ∧ Failing s i e ∧ t = raiseFatal e i.op i.fields.2 s) ∨
    (∃ (e : RefusalCause) (s' : State), st = e.status ∧ Refused s i e s' ∧ t = raiseRefusal e s') ∨
    (st = .ok ∧ tableA i.op s.phase = true ∧ Accepted s i t) := by
  cases exec_effect h with
  | fatal hp hf => exact .inl ⟨_, (Option.some.inj hst).symm, hp, hf, rfl⟩
  | refused hr => exact .inr (.inl ⟨_, _, (Option.some.inj hst).symm, hr, rfl⟩)
  | accepted hp ha => exact .inr (.inr ⟨Option.some.inj (hst.symm.trans ha.lastStatus), hp, ha⟩)

/-- The reset input puts Table Z in place (R220). -/
theorem eq_assertReset_of_step {s t : State} {rest : List HostEvent} (hhost : s.host = .reset :: rest)
    (hstep : step s = .next t) : t = assertReset { s with host := rest } := by
  simpa [step, hhost, eq_comm] using hstep

/-! ### Table Z, the error registers, the phase and the flags -/

theorem zeroCode_eq : (#v[0#8, 0#8, 0#8, 0#8, 0#8, 0#8, 0#8, 0#8] : Vector Byte 8) = Vector.replicate 8 0#8 := by decide

/-- Settles O1: reset is Table Z as written, and `INIT` answers from `beginConstruction`. -/
theorem resetStateIsTableZ : Obligations.ResetStateIsTableZ := by
  refine ⟨by simp [State.reset, zeroCode_eq], fun s => ⟨respond 0#8 0#64 (beginConstruction s), rfl, ?_⟩⟩
  simp [zeroCode_eq]

/-- The model's refusal is the record of R193. -/
theorem raiseRefusal_eq_refuse (e : RefusalCause) (s : State) : raiseRefusal e s = refuse e.status s := rfl

/-- A refusal is the record of R193 with at most a full buffer's flag raised (R197). -/
theorem Refused.result {s s' t : State} {i : Instr} {e : RefusalCause} (h : Refused s i e s')
    (ht : t = raiseRefusal e s') :
    t = refuse e.status { s with candovf := t.candovf, dgstovf := t.dgstovf } ∧
      (s.candovf = true → t.candovf = true) ∧ (s.dgstovf = true → t.dgstovf = true) := by
  subst ht
  rw [h.frame]
  exact ⟨rfl, by simp +contextual, by simp +contextual⟩

/-- Settles O48: each way a command can end, then the reset input. -/
theorem errorRegistersAreWrittenOnlyByFatalErrors : Obligations.ErrorRegistersAreWrittenOnlyByFatalErrors := by
  refine ⟨fun i s t st hexec hst => ?_, fun s t rest hhost hstep => ?_⟩
  · obtain ⟨e, rfl, hp, h, rfl⟩ | ⟨e, s', rfl, h, rfl⟩ | ⟨rfl, hp, h⟩ := exec_ends hexec hst
    · simp [hp, h.op_ne_init, fatal_code_cases]
    · refine ⟨fun _ => isFatal_refusal e, fun hf => by simp at hf, fun _ _ => ?_,
        fun hi => absurd hi h.op_ne_init, fun _ => h.result rfl⟩
      rw [h.frame]
      exact ⟨rfl, rfl, rfl⟩
    · exact ⟨fun _ => rfl, nofun, fun _ => h.errors, fun hi => by simp [h.init_eq hi], nofun⟩
  · rw [eq_assertReset_of_step hhost hstep]
    exact ⟨rfl, rfl, rfl⟩

/-- Settles O49: each way a command can end, then the reset input and the phase codes. -/
theorem phaseChangesOnlyAsR13Says : Obligations.PhaseChangesOnlyAsR13Says := by
  refine ⟨fun i s t st hexec hst => ?_, fun s t rest hhost hstep => ?_, rfl, rfl, rfl, fun p => by cases p <;> decide⟩
  · obtain ⟨e, rfl, hp, h, rfl⟩ | ⟨e, s', rfl, h, rfl⟩ | ⟨rfl, hp, h⟩ := exec_ends hexec hst
    · simp [hp, h.op_ne_init]
    · simp [h.op_ne_init, h.not_commit_in_build, h.frame]
    · refine ⟨?_, nofun, fun hf _ => accepted_in_failed (hf ▸ hp)⟩
      have hcommit : i.op = .commit → s.phase = .build := fun ho => by simpa [ho, tableA] using hp
      by_cases ho : i.op = .commit <;> simp [h.phase, ho, hcommit]
  · rw [eq_assertReset_of_step hhost hstep]
    rfl

/-- Settles O55: each way a command can end, the two commands held off, then the reset input. -/
theorem flagsAreSetAndClearedAsR14Says : Obligations.FlagsAreSetAndClearedAsR14Says := by
  refine ⟨fun i s t st hexec hst => ?_, fun x s hp hc => ?_, fun s hp hd => ?_, fun s t rest hhost hstep => ?_⟩
  · obtain ⟨e, rfl, hp, h, rfl⟩ | ⟨e, s', rfl, h, rfl⟩ | ⟨rfl, hp, h⟩ := exec_ends hexec hst
    · simp
    · simp [h.frame]
    · simp [h.perr, h.candovf, h.dgstovf, h.codev]
  · have hready : s.phase.inReady = true := (inReady_iff _).2 hp
    simp [exec, execTotpVerify, hready, hc, raiseRefusal_eq_refuse, RefusalCause.status]
  · have hlive : s.phase.notFailed = true := (notFailed_iff _).2 hp
    simp [exec, execHotpTrunc, hlive, digestUsable, hd, raiseRefusal_eq_refuse, RefusalCause.status]
  · rw [eq_assertReset_of_step hhost hstep]
    exact ⟨rfl, rfl, rfl, rfl⟩

/-! ### Answers as functions of what they depend on -/

/-- The answer of a command under a phase check. -/
@[simp] theorem requirePhase_resp (b : Bool) (body s : State) :
    (requirePhase b body s).resp = if b then body.resp else some ⟨.wrongPhase, 0#8, 0#64⟩ := by
  cases b <;> rfl

/-- The answer of a keyed computation shows the code and its length alone (R128). -/
@[simp] theorem computeAt_resp (c : Word) (s : State) :
    (computeAt c s).resp = some ⟨.ok, s.digits.setWidth 8, packString (hotpTrunc s c).code⟩ := rfl

/-- R127: the code of a counter is a function of the parameters, the algorithm, the key and the digit count. -/
theorem hotpTrunc_congr {s s' : State} (hparams : s.params = s'.params) (halg : s.alg = s'.alg) (hkey : s.key = s'.key)
    (hdigits : s.digits = s'.digits) : hotpTrunc s = hotpTrunc s' := by
  funext c
  simp only [hotpTrunc, hotpDigest, hotpRequest, hparams, halg, hkey, hdigits]

/-- R151: whether a candidate matches a counter is a function of the counter's code. -/
theorem candidateMatches_congr {s s' : State} (h : hotpTrunc s = hotpTrunc s') :
    candidateMatches s = candidateMatches s' := by
  funext cand c
  simp only [candidateMatches, h]

/-- R141: the time is a function of the operand and the clock. -/
theorem resolveTime_congr {s s' : State} (hnow : s.nowMs = s'.nowMs) (x : TimeArg) :
    resolveTime x s = resolveTime x s' := by
  cases x <;> simp [resolveTime, hnow]

/-- Settles O51: every component the answers are computed from is the same in the two states. -/
theorem answersDependOnTheInstanceAlone : Obligations.AnswersDependOnTheInstanceAlone := by
  refine ⟨fun s s' i ⟨hp, hp', hkey, hdigits, hperiod, halg, hparams, hnow⟩ hi => ?_,
    fun s s' x ⟨hp, hp', hkey, hdigits, hperiod, halg, hparams, hnow⟩ hcand hwindow hovf => ?_⟩
  · have htrunc := hotpTrunc_congr hparams halg hkey hdigits
    cases i <;> simp only [Instr.op, reduceCtorEq, or_false] at hi
    case hotpCompute c => exact ⟨_, _, rfl, rfl, by simp [hp, hp', hdigits, htrunc]⟩
    case totpCtr x => exact ⟨_, _, rfl, rfl, by simp [hp, hp', hperiod, resolveTime_congr hnow x]⟩
    case totpRem x => exact ⟨_, _, rfl, rfl, by simp [hp, hp', hperiod, resolveTime_congr hnow x]⟩
    case totpGen x =>
      exact ⟨_, _, rfl, rfl, by simp [hp, hp', hperiod, hdigits, htrunc, resolveTime_congr hnow x]⟩
  · have hmatch := candidateMatches_congr (hotpTrunc_congr hparams halg hkey hdigits)
    refine ⟨_, _, rfl, rfl, ?_⟩
    simp [hp, hp', hovf, hperiod, hcand, hwindow, hparams, hmatch, resolveTime_congr hnow x, apply_ite State.resp]

/-! ### Secrets -/

/-- Two branchings on the same condition answer alike when their branches do. -/
theorem ite_resp_congr {p q : Prop} [Decidable p] [Decidable q] {a b a' b' : State} (hpq : p ↔ q)
    (ha : a.resp = a'.resp) (hb : b.resp = b'.resp) : (if p then a else b).resp = (if q then a' else b').resp := by
  by_cases hp : p
  · rw [if_pos hp, if_pos (hpq.1 hp), ha]
  · rw [if_neg hp, if_neg (mt hpq.2 hp), hb]

theorem requirePhase_resp_congr {b : Bool} {body body' s s' : State} (h : body.resp = body'.resp) :
    (requirePhase b body s).resp = (requirePhase b body' s').resp := ite_resp_congr Iff.rfl h rfl

theorem requireEncoder_resp_congr {body body' s s' : State} (hs : s.params = s'.params) (h : body.resp = body'.resp) :
    (requireEncoder body s).resp = (requireEncoder body' s').resp := ite_resp_congr (by rw [hs]) h rfl

/-- R94, R96: what a symbol answers is decided by `NB`, `KLEN` and `KMAX`. -/
theorem pushSymbol_resp_congr {c : Byte} {v : BitVec 5} {s s' : State} (hnb : s.nb = s'.nb)
    (hkey : s.key.length = s'.key.length) (hparams : s.params = s'.params) :
    (pushSymbol c v s).resp = (pushSymbol c v s').resp :=
  ite_resp_congr (by rw [hnb]) (ite_resp_congr (by rw [hkey, hparams]) rfl rfl) rfl

section WithSecrets

variable {key dgst cand : List Byte} {acc eacc : BitVec 12} {s : State}

/-- R27: no register of Table R shows more of a secret than its length. -/
theorem readReg_withSecrets (hkey : key.length = s.key.length) (hdgst : dgst.length = s.dgst.length)
    (hcand : cand.length = s.cand.length) (k : Reg) :
    readReg k s = readReg k (withSecrets key dgst cand acc eacc s) := by
  cases k with
  | klen => exact congrArg lengthWord hkey.symm
  | clen => exact congrArg lengthWord hcand.symm
  | dlen => exact congrArg lengthWord hdgst.symm
  | _ => rfl

theorem readCount_withSecrets (k : Reg) : readCount k s = readCount k (withSecrets key dgst cand acc eacc s) := by
  cases k <;> rfl

theorem resolveTime_withSecrets (x : TimeArg) :
    resolveTime x s = resolveTime x (withSecrets key dgst cand acc eacc s) := resolveTime_congr rfl x

end WithSecrets

/-- Settles O52: what each command answers, in the two states. -/
theorem keyMaterialIsNotReadable : Obligations.KeyMaterialIsNotReadable := by
  intro i s key dgst cand acc eacc hkey hdgst hcand hkeyed htrunc hverify henc
  cases i with
  | init => exact ⟨_, _, rfl, rfl, rfl⟩
  | totpWin | dgstClr | candClr => exact ⟨_, _, rfl, rfl, requirePhase_resp_congr rfl⟩
  | commit => exact ⟨_, _, rfl, rfl, requirePhase_resp_congr (by simp [withSecrets, hkey])⟩
  | rd k =>
    refine ⟨_, _, rfl, rfl, ite_resp_congr Iff.rfl ?_ rfl⟩
    rw [respond_resp, respond_resp, ← readCount_withSecrets, ← readReg_withSecrets hkey hdgst hcand]
  | cfgDigits | cfgPeriod => exact ⟨_, _, rfl, rfl, requirePhase_resp_congr (ite_resp_congr Iff.rfl rfl rfl)⟩
  | cfgAlg v =>
    refine ⟨_, _, rfl, rfl, requirePhase_resp_congr ?_⟩
    cases algOfCode? v <;> rfl
  | b32Push c =>
    refine ⟨_, _, rfl, rfl, requirePhase_resp_congr ?_⟩
    simp only [withSecrets]
    cases cls s.params.ws c with
    | skip | invalid => rfl
    | sym v => exact pushSymbol_resp_congr rfl hkey.symm rfl
  | encClr => exact ⟨_, _, rfl, rfl, requireEncoder_resp_congr rfl rfl⟩
  | encPush b =>
    obtain rfl : eacc = s.eacc := henc (.inl rfl)
    exact ⟨_, _, rfl, rfl, requireEncoder_resp_congr rfl rfl⟩
  | encEnd =>
    obtain rfl : eacc = s.eacc := henc (.inr rfl)
    exact ⟨_, _, rfl, rfl, requireEncoder_resp_congr rfl (ite_resp_congr Iff.rfl rfl rfl)⟩
  | dgstPush b =>
    refine ⟨_, _, rfl, rfl, requirePhase_resp_congr (ite_resp_congr ?_ rfl ?_)⟩ <;> simp [withSecrets, hdgst]
  | hotpTrunc =>
    obtain rfl : dgst = s.dgst := htrunc rfl
    exact ⟨_, _, rfl, rfl, requirePhase_resp_congr (ite_resp_congr Iff.rfl rfl rfl)⟩
  | hotpCompute c =>
    obtain rfl : key = s.key := hkeyed (.inl rfl)
    exact ⟨_, _, rfl, rfl, requirePhase_resp_congr rfl⟩
  | totpCtr x | totpRem x =>
    refine ⟨_, _, rfl, rfl, requirePhase_resp_congr ?_⟩
    rw [← resolveTime_withSecrets]
    rfl
  | totpGen x =>
    obtain rfl : key = s.key := hkeyed (.inr (.inl rfl))
    refine ⟨_, _, rfl, rfl, requirePhase_resp_congr ?_⟩
    rw [← resolveTime_withSecrets]
    rfl
  | totpVerify x =>
    obtain rfl : key = s.key := hkeyed (.inr (.inr rfl))
    obtain rfl : cand = s.cand := hverify rfl
    refine ⟨_, _, rfl, rfl, requirePhase_resp_congr (ite_resp_congr Iff.rfl rfl ?_)⟩
    rw [← resolveTime_withSecrets]
    rfl
  | candPush c =>
    refine ⟨_, _, rfl, rfl, requirePhase_resp_congr (ite_resp_congr ?_ rfl ?_)⟩ <;> simp [withSecrets, hcand]

/-! ### The clock -/

/-- The state with another reading at the clock port (R30). -/
def withClock (now : Word) (s : State) : State := { s with nowMs := now }

/-- A branching does the same under both readings when its branches do. -/
theorem ite_withClock {now : Word} {p q : Prop} [Decidable p] [Decidable q] {a b a' b' : State} (hqp : q ↔ p)
    (ha : a' = withClock now a) (hb : b' = withClock now b) :
    (if q then a' else b') = withClock now (if p then a else b) := by
  by_cases hp : p
  · rw [if_pos hp, if_pos (hqp.2 hp), ha]
  · rw [if_neg hp, if_neg (mt hqp.1 hp), hb]

theorem requirePhase_withClock {now : Word} {b : Bool} {body body' s : State} (h : body' = withClock now body) :
    requirePhase b body' (withClock now s) = withClock now (requirePhase b body s) := ite_withClock Iff.rfl h rfl

theorem requireEncoder_withClock {now : Word} {body body' s : State} (h : body' = withClock now body) :
    requireEncoder body' (withClock now s) = withClock now (requireEncoder body s) := ite_withClock Iff.rfl h rfl

theorem pushSymbol_withClock (c : Byte) (v : BitVec 5) (now : Word) (s : State) :
    pushSymbol c v (withClock now s) = withClock now (pushSymbol c v s) :=
  ite_withClock Iff.rfl (ite_withClock Iff.rfl rfl rfl) rfl

/-- R141: a time given as an operand is the same whatever the clock port shows. -/
theorem resolveTime_withClock {x : TimeArg} (hx : x ≠ .clock) (now : Word) (s : State) :
    resolveTime x (withClock now s) = resolveTime x s := by
  cases x with
  | clock => exact absurd rfl hx
  | ms | sec => rfl

/-- R30: a command that does not name the clock does the same whatever the port shows. -/
theorem exec_withClock {i : Instr} (s : State) (now : Word) (hctr : i ≠ .totpCtr .clock) (hrem : i ≠ .totpRem .clock)
    (hgen : i ≠ .totpGen .clock) (hver : i ≠ .totpVerify .clock) :
    ∃ t, exec i s = .next t ∧ exec i (withClock now s) = .next (withClock now t) := by
  cases i with
  | init => exact ⟨_, rfl, rfl⟩
  | commit | dgstClr | hotpCompute | totpWin | candClr =>
    exact ⟨_, rfl, congrArg Host.Outcome.next (requirePhase_withClock rfl)⟩
  | rd k => exact ⟨_, rfl, congrArg Host.Outcome.next (ite_withClock Iff.rfl (by cases k <;> rfl) rfl)⟩
  | cfgDigits | cfgPeriod | dgstPush | hotpTrunc | candPush =>
    exact ⟨_, rfl, congrArg Host.Outcome.next (requirePhase_withClock (ite_withClock Iff.rfl rfl rfl))⟩
  | cfgAlg v =>
    refine ⟨_, rfl, congrArg Host.Outcome.next (requirePhase_withClock ?_)⟩
    cases algOfCode? v <;> rfl
  | b32Push c =>
    refine ⟨_, rfl, congrArg Host.Outcome.next (requirePhase_withClock ?_)⟩
    simp only [withClock]
    cases cls s.params.ws c with
    | skip | invalid => rfl
    | sym v => exact pushSymbol_withClock c v now s
  | encClr | encPush => exact ⟨_, rfl, congrArg Host.Outcome.next (requireEncoder_withClock rfl)⟩
  | encEnd =>
    exact ⟨_, rfl, congrArg Host.Outcome.next (requireEncoder_withClock (ite_withClock Iff.rfl rfl rfl))⟩
  | totpCtr x =>
    refine ⟨_, rfl, congrArg Host.Outcome.next (requirePhase_withClock ?_)⟩
    rw [resolveTime_withClock (by rintro rfl; exact hctr rfl)]
    rfl
  | totpRem x =>
    refine ⟨_, rfl, congrArg Host.Outcome.next (requirePhase_withClock ?_)⟩
    rw [resolveTime_withClock (by rintro rfl; exact hrem rfl)]
    rfl
  | totpGen x =>
    refine ⟨_, rfl, congrArg Host.Outcome.next (requirePhase_withClock ?_)⟩
    rw [resolveTime_withClock (by rintro rfl; exact hgen rfl)]
    rfl
  | totpVerify x =>
    refine ⟨_, rfl, congrArg Host.Outcome.next (requirePhase_withClock (ite_withClock Iff.rfl rfl ?_))⟩
    rw [resolveTime_withClock (by rintro rfl; exact hver rfl)]
    rfl

/-- Settles O53: by `exec_withClock`; the clock is a number of milliseconds (R141). -/
theorem onlyClockCommandsReadTheClock : Obligations.OnlyClockCommandsReadTheClock :=
  ⟨fun _ s now hctr hrem hgen hver => exec_withClock s now hctr hrem hgen hver, fun _ => ⟨rfl, rfl, rfl, rfl⟩⟩

end Sys2Proof.Machine

/-! Proofs. The decoder as one equivalence, then the statements about the encoding of words, characters and codes. -/

namespace Sys2Proof

/-- Table O lists every mnemonic. -/
theorem Op.mem_all (o : Op) : o ∈ Op.all := by cases o <;> decide

/-! ### The decoder, read both ways -/

/-- R67: the time form reads exactly the time operand with these fields. -/
theorem decodeTime_ok_iff (f : TimeArg → Instr) (j : Instr) (a : Byte) (d : Word) :
    decodeTime f a d = .ok j ↔ ∃ x : TimeArg, j = f x ∧ x.fields = (a, d) := by
  constructor
  · intro h
    obtain ⟨hhigh, hlow⟩ := time_fields a
    unfold decodeTime at h
    split at h
    · cases h
    next h6 =>
    have ha : (a.extractLsb' 0 2).toNat = a.toNat := hlow (by rw [hhigh] at h6; omega)
    have selector {n : Nat} (hn : n < 4) (h2 : a.extractLsb' 0 2 = BitVec.ofNat 2 n) : BitVec.ofNat 8 n = a :=
      BitVec.eq_of_toNat_eq (by rw [← ha, h2]; simp; omega)
    split at h
    · next h2 =>
      split at h
      · next hd => exact ⟨.clock, by simpa using h.symm, by simp [TimeArg.fields, selector (by decide) h2, hd]⟩
      · cases h
    split at h
    · next h2 => exact ⟨.ms d, by simpa using h.symm, by simp [TimeArg.fields, selector (by decide) h2]⟩
    split at h
    · next h2 => exact ⟨.sec d, by simpa using h.symm, by simp [TimeArg.fields, selector (by decide) h2]⟩
    · cases h
  · rintro ⟨x, rfl, hx⟩
    simpa [hx] using decodeTime_fields f x

/-- R65, R67: which fields are those of a time operand. -/
theorem exists_timeArg_fields_iff (a : Byte) (d : Word) :
    (∃ x : TimeArg, x.fields = (a, d)) ↔ a.toNat < 3 ∧ (a.toNat ≠ 0 ∨ d.toNat = 0) := by
  constructor
  · rintro ⟨x, hx⟩
    cases x <;> obtain ⟨rfl, rfl⟩ := Prod.mk.inj hx <;> simp
  · rintro ⟨ha, hd⟩
    obtain rfl | rfl | rfl : a = 0#8 ∨ a = 1#8 ∨ a = 2#8 := by bv_omega
    · exact ⟨.clock, by rw [BitVec.eq_of_toNat_eq (y := 0#64) (hd.resolve_left (· rfl))]; rfl⟩
    · exact ⟨.ms d, rfl⟩
    · exact ⟨.sec d, rfl⟩

/-- `RD` reads exactly the register with this number, if the block has it (R27, R66). -/
theorem decodeReg_ok_iff (hasEnc : Bool) (j : Instr) (a : Byte) (d : Word) :
    decodeReg hasEnc a d = .ok j ↔ ∃ k : Reg, j = .rd k ∧ k.num = a ∧ d = 0#64 ∧ k.present hasEnc = true := by
  constructor
  · intro h
    unfold decodeReg at h
    split at h
    · cases h
    next hd =>
    split at h
    · next k hk =>
      split at h
      · next hp => exact ⟨k, by simpa using h.symm, Reg.num_of_ofNum? hk, not_not.1 hd, hp⟩
      · cases h
    · cases h
  · rintro ⟨k, rfl, rfl, rfl, hp⟩
    simp [decodeReg, hp]

/-- Table R numbers its registers from 0 to 17 without a gap. -/
theorem exists_reg_num (a : Byte) (ha : a.toNat ≤ 17) : ∃ k : Reg, k.num = a := by
  have hsome : ∀ a : Byte, a.toNat ≤ 17 → (Reg.ofNum? a).isSome := by decide
  obtain ⟨k, hk⟩ := Option.isSome_iff_exists.1 (hsome a ha)
  exact ⟨k, Reg.num_of_ofNum? hk⟩

/-- The register numbers of a block: 17 only with the encoder (R27). -/
theorem Reg.present_iff (hasEnc : Bool) (k : Reg) :
    k.present hasEnc = true ↔ k.num.toNat ≤ 16 ∨ (k.num.toNat = 17 ∧ hasEnc = true) := by
  cases k <;> simp [Reg.num, Reg.present]

/-- Every number Table R gives a block names one of its registers (R27, R66). -/
theorem exists_reg_num_iff (hasEnc : Bool) (a : Byte) :
    (∃ k : Reg, k.num = a ∧ k.present hasEnc = true) ↔ a.toNat ≤ 16 ∨ (a.toNat = 17 ∧ hasEnc = true) := by
  constructor
  · rintro ⟨k, rfl, hp⟩
    exact (k.present_iff hasEnc).1 hp
  · intro ha
    obtain ⟨k, rfl⟩ := exists_reg_num a (by omega)
    exact ⟨k, rfl, (k.present_iff hasEnc).2 ha⟩

/-- A command is read back from its own row of Table O and its own fields. -/
theorem decodeOperands_fields {hasEnc : Bool} {i : Instr} (hi : i.wellFormed hasEnc = true) :
    decodeOperands hasEnc i.op i.fields.1 i.fields.2 = .ok i := by
  cases i with
  | rd k => exact (decodeReg_ok_iff hasEnc _ _ _).2 ⟨k, rfl, rfl, rfl, hi⟩
  | init | commit | encClr | encEnd | dgstClr | hotpTrunc | candClr => rfl
  | cfgDigits | cfgPeriod | cfgAlg | hotpCompute | totpWin => rfl
  | b32Push | encPush | dgstPush | candPush => exact decodeByte_fields _ _
  | totpCtr | totpRem | totpGen | totpVerify => exact decodeTime_fields _ _

/-- What a row's operands decode to is a command of that row with these fields, and it exists in the block. -/
theorem of_decodeOperands {hasEnc : Bool} {o : Op} {a : Byte} {d : Word} {i : Instr} (ho : o.present hasEnc = true)
    (h : decodeOperands hasEnc o a d = .ok i) : i.op = o ∧ i.fields = (a, d) ∧ i.wellFormed hasEnc = true := by
  have byte_back (hd : d.toNat < 256) : (d.setWidth 8).setWidth 64 = d :=
    BitVec.eq_of_toNat_eq (by rw [BitVec.toNat_setWidth, BitVec.toNat_setWidth]; omega)
  cases o with
  | rd =>
    obtain ⟨k, rfl, rfl, rfl, hp⟩ := (decodeReg_ok_iff _ _ _ _).1 h
    exact ⟨rfl, rfl, hp⟩
  | init | commit | encClr | encEnd | dgstClr | hotpTrunc | candClr =>
    obtain ⟨rfl, rfl, rfl⟩ := (decodeNone_ok_iff _ _ _ _).1 h
    exact ⟨rfl, rfl, (Bool.and_true _).trans ho⟩
  | cfgDigits | cfgPeriod | cfgAlg | hotpCompute | totpWin =>
    obtain ⟨rfl, rfl⟩ := (decodeWhole_ok_iff _ _ _ _).1 h
    exact ⟨rfl, rfl, rfl⟩
  | b32Push | encPush | dgstPush | candPush =>
    obtain ⟨rfl, rfl, hd⟩ := (decodeByte_ok_iff _ _ _ _).1 h
    exact ⟨rfl, by simp only [Instr.fields, byte_back hd], (Bool.and_true _).trans ho⟩
  | totpCtr | totpRem | totpGen | totpVerify =>
    obtain ⟨x, rfl, hx⟩ := (decodeTime_ok_iff _ _ _ _).1 h
    exact ⟨rfl, hx, rfl⟩

/-- A command of the block is of a row of the block (R66). -/
theorem op_present_of_wellFormed {hasEnc : Bool} {i : Instr} (hi : i.wellFormed hasEnc = true) :
    i.op.present hasEnc = true := (Bool.and_eq_true _ _ ▸ hi).1

/-- The decoder, read both ways: three fields decode to the command of the block whose fields they are
(R60, R63 to R67). -/
theorem decodeFields_ok_iff (hasEnc : Bool) (op a : Byte) (d : Word) (i : Instr) :
    decodeFields hasEnc op a d = .ok i ↔ i.op.code = op ∧ i.fields = (a, d) ∧ i.wellFormed hasEnc = true := by
  constructor
  · intro h
    unfold decodeFields at h
    split at h
    · next o ho =>
      split at h
      · next hp =>
        obtain ⟨rfl, hf, hi⟩ := of_decodeOperands hp h
        exact ⟨Op.code_of_ofCode? ho, hf, hi⟩
      · cases h
    · cases h
  · rintro ⟨rfl, hf, hi⟩
    simpa [decodeFields, op_present_of_wellFormed hi, hf] using decodeOperands_fields hi

end Sys2Proof

namespace Sys2Proof.Machine

open Sys2Proof.Spec

/-! ### Legal words -/

/-- Table O as the statements write it is the decoder's. -/
theorem tableO_eq_ofCode? (op : Byte) : tableO op = Op.ofCode? op := by
  revert op; decide

/-- R66: an opcode of Table O is reserved in the blocks that do not have its row. -/
theorem reservedOpcode_code (hasEnc : Bool) (o : Op) : reservedOpcode hasEnc o.code = !o.present hasEnc := by
  cases o <;> rfl

/-- R65 and the selector and register rules of R66 are exactly the checks the decoder makes of a row's operands. -/
theorem operandsLegal_iff (hasEnc : Bool) (o : Op) (a : Byte) (d : Word) :
    operandsLegal hasEnc o a d = true ↔ ∃ i, decodeOperands hasEnc o a d = .ok i := by
  cases o with
  | rd =>
    simp only [operandsLegal, decodeOperands, decodeReg_ok_iff, Bool.and_eq_true, Bool.or_eq_true, beq_iff_eq,
      decide_eq_true_eq, ← exists_reg_num_iff, ← BitVec.toNat_inj (x := d)]
    exact ⟨fun ⟨hd, k, hk, hp⟩ => ⟨_, k, rfl, hk, hd, hp⟩, fun ⟨_, k, _, hk, hd, hp⟩ => ⟨hd, k, hk, hp⟩⟩
  | init | commit | encClr | encEnd | dgstClr | hotpTrunc | candClr =>
    simp [operandsLegal, decodeOperands, decodeNone_ok_iff, ← BitVec.toNat_inj]
  | cfgDigits | cfgPeriod | cfgAlg | hotpCompute | totpWin =>
    simp [operandsLegal, decodeOperands, decodeWhole_ok_iff, ← BitVec.toNat_inj]
  | b32Push | encPush | dgstPush | candPush =>
    simp [operandsLegal, decodeOperands, decodeByte_ok_iff, ← BitVec.toNat_inj]
  | totpCtr | totpRem | totpGen | totpVerify =>
    simp only [operandsLegal, decodeOperands, decodeTime_ok_iff, Bool.and_eq_true, Bool.or_eq_true, bne_iff_ne,
      beq_iff_eq, decide_eq_true_eq, ← exists_timeArg_fields_iff]
    exact ⟨fun ⟨x, hx⟩ => ⟨_, x, rfl, hx⟩, fun ⟨_, x, _, hx⟩ => ⟨x, hx⟩⟩

/-- R65, R66: a word is legal exactly when it decodes. -/
theorem wordLegal_iff (hasEnc : Bool) (op a : Byte) (d : Word) :
    wordLegal hasEnc op a d = true ↔ ∃ i, decodeFields hasEnc op a d = .ok i := by
  unfold wordLegal decodeFields
  rw [tableO_eq_ofCode?]
  cases ho : Op.ofCode? op with
  | none => simp
  | some o =>
    obtain rfl := Op.code_of_ofCode? ho
    cases hp : o.present hasEnc <;> simp [reservedOpcode_code, hp, operandsLegal_iff]

/-- Presenting a command word runs it in the state it was presented in. -/
theorem step_offer (op a : Byte) (d : Word) (s : State) : step (offer op a d s) = runWord (cmdWord op a d) s := rfl

/-- A legal word performs the command of the block whose fields it has. -/
theorem exists_step_offer_of_legal {op a : Byte} {d : Word} {s : State} (h : wordLegal s.params.hasEnc op a d = true) :
    ∃ i : Instr, i.op.code = op ∧ i.fields = (a, d) ∧ i.wellFormed s.params.hasEnc = true ∧
      step (offer op a d s) = exec i s := by
  obtain ⟨i, hi⟩ := (wordLegal_iff _ _ _ _).1 h
  obtain ⟨hop, hf, hw⟩ := (decodeFields_ok_iff _ _ _ _ _).1 hi
  exact ⟨i, hop, hf, hw, by simp [step_offer, runWord, hi]⟩

/-- An illegal word is refused with IllegalCommand (R65, R66, R193). -/
theorem step_offer_of_illegal {op a : Byte} {d : Word} {s : State} (h : wordLegal s.params.hasEnc op a d = false) :
    step (offer op a d s) = .next (refuse .illegalCommand s) := by
  cases hdec : decodeFields s.params.hasEnc op a d with
  | ok i => simp [(wordLegal_iff _ _ _ _).2 ⟨i, hdec⟩] at h
  | error e => simp [step_offer, runWord, hdec, raiseRefusal_eq_refuse, RefusalCause.status]

/-- Only a command the block does not have is refused with IllegalCommand (Table X). -/
theorem exec_ne_illegalCommand {i : Instr} {s t : State} (hi : i.wellFormed s.params.hasEnc = true)
    (h : exec i s = .next t) : t.lastStatus ≠ some .illegalCommand := by
  intro hst
  obtain ⟨e, he, -⟩ | ⟨e, s', he, hr, -⟩ | ⟨he, -⟩ := exec_ends h hst
  · cases e <;> cases he
  · cases hr with
    | absent _ habsent => simp [habsent] at hi
    | phase | candidateCut | digestUnusable | candidateFull | digestFull => cases he
  · cases he

/-! ### The reserved opcodes -/

/-- The opcodes of a block: the codes of the rows of Table O it has (R63, R66). -/
def legalOpcodes (hasEnc : Bool) : List Nat := (Op.all.filter (·.present hasEnc)).map (·.code.toNat)

theorem legalOpcodes_nodup (hasEnc : Bool) : (legalOpcodes hasEnc).Nodup := by
  cases hasEnc <;> decide

/-- R66: the opcodes that are not reserved are the codes of the block's rows. -/
theorem reservedOpcode_eq_false_iff (hasEnc : Bool) (op : Byte) :
    reservedOpcode hasEnc op = false ↔ ∃ o : Op, o.present hasEnc = true ∧ o.code = op := by
  constructor
  · intro h
    cases ho : tableO op with
    | none => simp [reservedOpcode, ho] at h
    | some o =>
      obtain rfl := Op.code_of_ofCode? (tableO_eq_ofCode? op ▸ ho)
      exact ⟨o, by simpa [reservedOpcode_code] using h, rfl⟩
  · rintro ⟨o, hp, rfl⟩
    simp [reservedOpcode_code, hp]

/-- The opcodes of a block are exactly those R66 does not reserve. -/
theorem mem_legalOpcodes_iff (hasEnc : Bool) (k : Nat) :
    k ∈ legalOpcodes hasEnc ↔ k < 256 ∧ reservedOpcode hasEnc (BitVec.ofNat 8 k) = false := by
  rw [reservedOpcode_eq_false_iff]
  simp only [legalOpcodes, List.mem_map, List.mem_filter, Op.mem_all, true_and]
  constructor
  · rintro ⟨o, hp, rfl⟩
    exact ⟨o.code.isLt, o, hp, by simp⟩
  · rintro ⟨hk, o, hp, ho⟩
    exact ⟨o, hp, by rw [ho, BitVec.toNat_ofNat, Nat.mod_eq_of_lt hk]⟩

/-- R66: every opcode but those of the block's rows is reserved. -/
theorem countP_reservedOpcode (hasEnc : Bool) :
    ((List.range 256).countP fun k => reservedOpcode hasEnc (BitVec.ofNat 8 k)) = 256 - (legalOpcodes hasEnc).length := by
  have hperm : ((List.range 256).filter fun k => !reservedOpcode hasEnc (BitVec.ofNat 8 k)).Perm (legalOpcodes hasEnc) :=
    (List.perm_ext_iff_of_nodup (List.nodup_range.filter _) (legalOpcodes_nodup hasEnc)).2 fun k => by
      simp [mem_legalOpcodes_iff]
  have hsplit :=
    List.length_eq_countP_add_countP (fun k => reservedOpcode hasEnc (BitVec.ofNat 8 k)) (l := List.range 256)
  simp only [List.length_range, Bool.not_eq_true, Bool.decide_eq_false] at hsplit
  rw [← hperm.length_eq, ← List.countP_eq_length_filter]
  omega

/-- Settles O10: a word is legal exactly when it decodes, and a command that exists is not IllegalCommand. -/
theorem illegalWordsAreRefusedAndOnlyThey : Obligations.IllegalWordsAreRefusedAndOnlyThey := by
  refine ⟨fun op a d s => ⟨step_offer_of_illegal, fun h => ?_⟩, countP_reservedOpcode true, countP_reservedOpcode false⟩
  obtain ⟨i, -, -, hi, hstep⟩ := exists_step_offer_of_legal h
  obtain ⟨t, ht⟩ := exec_next i s
  exact ⟨t, hstep.trans ht, exec_ne_illegalCommand hi ht⟩

/-! ### Port words as bytes -/

/-- The bits below bit 64 of a command word are those of `d` (Table F1). -/
theorem cmdWord_low (op a : Byte) (d : Word) {k n : Nat} (h : k + n ≤ 64) :
    (cmdWord op a d).extractLsb' k n = d.extractLsb' k n := BitVec.extractLsb'_append_eq_of_add_le h

/-- R78: a word laid out from three fields travels as `op`, `a` and the eight bytes of `d`. -/
theorem wordBytes_cmdWord (op a : Byte) (d : Word) : wordBytes (cmdWord op a d) = op :: a :: be8 d := by
  simp [wordBytes, be8, cmdWord_low]

/-- R78: the ten bytes of a word, joined from the first on, are the word. -/
theorem bytesWord?_wordBytes (w : PortWord) : bytesWord? (wordBytes w) = some w := by
  have join (k n : Nat) : w.extractLsb' (k + 8) n ++ w.extractLsb' k 8 = w.extractLsb' k (n + 8) :=
    BitVec.extractLsb'_append_extractLsb'_eq_extractLsb' rfl
  simp only [wordBytes, bytesWord?]
  rw [join 64 8, join 56 16, join 48 24, join 40 32, join 32 40, join 24 48, join 16 56, join 8 64, join 0 72]
  exact congrArg some BitVec.extractLsb'_eq_self

/-- Settles O9: a response word is laid out as a command word is (Table F2). -/
theorem portWordTravelsAsTenBytes : Obligations.PortWordTravelsAsTenBytes :=
  ⟨fun w => ⟨bytesWord?_wordBytes w, rfl⟩, wordBytes_cmdWord, fun q => wordBytes_cmdWord q.st.code q.n q.r⟩

/-! ### Rendered codes -/

/-- R73: the last character of a code is the units digit, the ones before it are the code of the rest of the number. -/
theorem render_succ (v dg : Nat) : render v (dg + 1) = render (v / 10) dg ++ [BitVec.ofNat 8 (0x30 + v % 10)] := by
  unfold render
  rw [List.range_succ, List.map_append, List.map_singleton, Nat.add_sub_cancel, Nat.sub_self, pow_zero, Nat.div_one]
  congr 1
  refine List.map_congr_left fun j hj => ?_
  have hj := List.mem_range.1 hj
  rw [Nat.div_div_eq_div_mul, ← pow_succ', show dg - 1 - j + 1 = dg - j by omega]

/-- R73: the decimal number of a code is the value it was rendered from. -/
theorem render_decimal {v dg : Nat} (h : v < 10 ^ dg) :
    (render v dg).foldl (fun n c => 10 * n + (c.toNat - 0x30)) 0 = v := by
  induction dg generalizing v with
  | zero => simpa [render, eq_comm] using h
  | succ dg ih =>
    rw [render_succ, List.foldl_append, ih (by rw [pow_succ] at h; omega), List.foldl_cons, List.foldl_nil,
      BitVec.toNat_ofNat]
    omega

/-- Settles O31: by induction on the digit count (`render_decimal`). -/
theorem renderedCodeIsTheDecimalNumber : Obligations.RenderedCodeIsTheDecimalNumber :=
  ⟨fun v dg h => ⟨render_length v dg, render_digits v dg, render_decimal h⟩, by decide⟩

/-! ### The alphabet -/

/-- R70 with the characters as numbers. -/
theorem cls_eq (ws : List Byte) (c : Byte) : cls ws c =
    if c ∈ ws then .skip
    else if c.toNat = 0x3D then .skip
    else if 0x41 ≤ c.toNat ∧ c.toNat ≤ 0x5A then .sym (BitVec.ofNat 5 (c.toNat - 0x41))
    else if 0x61 ≤ c.toNat ∧ c.toNat ≤ 0x7A then .sym (BitVec.ofNat 5 (c.toNat - 0x61))
    else if 0x32 ≤ c.toNat ∧ c.toNat ≤ 0x37 then .sym (BitVec.ofNat 5 (c.toNat - 0x32 + 26))
    else .invalid := by
  have value {x : Byte} {n : Nat} (h : x.toNat = n) : x.setWidth 5 = BitVec.ofNat 5 n := by
    rw [← h, BitVec.ofNat_toNat]
  unfold cls
  refine ite_congr rfl (fun _ => rfl) fun _ =>
    ite_congr (propext BitVec.toNat_inj.symm) (fun _ => rfl) fun _ =>
    ite_congr rfl (fun upper => congrArg _ (value ?_)) fun _ =>
    ite_congr rfl (fun lower => congrArg _ (value ?_)) fun _ =>
    ite_congr rfl (fun digit => congrArg _ (value ?_)) fun _ => rfl
  all_goals bv_omega

/-- R70, last case: a character is invalid when no case before takes it. -/
theorem cls_eq_invalid_iff (ws : List Byte) (c : Byte) : cls ws c = .invalid ↔
    c ∉ ws ∧ c.toNat ≠ 0x3D ∧ ¬ (0x41 ≤ c.toNat ∧ c.toNat ≤ 0x5A) ∧ ¬ (0x61 ≤ c.toNat ∧ c.toNat ≤ 0x7A) ∧
      ¬ (0x32 ≤ c.toNat ∧ c.toNat ≤ 0x37) := by
  rw [cls_eq]
  split_ifs <;> simp_all

/-- R70: a legal whitespace set holds no pad, no letter and no digit 2 to 7. -/
theorem wsLegal_iff (p : Params) : p.wsLegal = true ↔
    ∀ c ∈ p.ws, c.toNat ≠ 0x3D ∧ ¬ (0x41 ≤ c.toNat ∧ c.toNat ≤ 0x5A) ∧
      ¬ (0x61 ≤ c.toNat ∧ c.toNat ≤ 0x7A) ∧ ¬ (0x32 ≤ c.toNat ∧ c.toNat ≤ 0x37) := by
  unfold Params.wsLegal
  rw [List.all_eq_true]
  refine forall₂_congr fun c _ => ?_
  simp only [Bool.not_eq_true', Bool.or_eq_false_iff, beq_eq_false_iff_ne, Bool.and_eq_false_iff,
    decide_eq_false_iff_not]
  bv_omega

/-- A legal whitespace set takes no character of the alphabet away. -/
theorem cls_of_wsLegal {p : Params} {c : Byte} {v : BitVec 5} (hp : p.wsLegal = true) (hc : cls [] c = .sym v) :
    cls p.ws c = .sym v := by
  have hmem : c ∉ p.ws := by
    intro hmem
    obtain ⟨hpad, hupper, hlower, hdigit⟩ := (wsLegal_iff p).1 hp c hmem
    simp [cls_eq, hpad, hupper, hlower, hdigit] at hc
  rw [← hc]
  simp [cls, hmem]

/-- The default whitespace: tab to carriage return, and space (Table P, D8). -/
theorem mem_default_ws_iff (c : Byte) : c ∈ Params.default.ws ↔ (0x09 ≤ c.toNat ∧ c.toNat ≤ 0x0D) ∨ c.toNat = 0x20 := by
  simp only [Params.default, List.mem_cons, List.not_mem_nil, or_false]
  bv_omega

/-- Settles O18: Table A32 is read with no whitespace set, and a legal one takes no symbol of it (`cls_of_wsLegal`). -/
theorem alphabetIsTableA32 : Obligations.AlphabetIsTableA32 := by
  refine ⟨by decide, fun p v hp => cls_of_wsLegal hp ?_, fun p v hp hv => cls_of_wsLegal hp ?_, cls_eq, wsLegal_iff,
    fun c => ?_⟩
  · revert v; decide
  · revert v; decide
  · rw [cls_eq_invalid_iff, mem_default_ws_iff]
    omega

end Sys2Proof.Machine

/-! Proofs. The Base32 decoder: one character as R91 writes it, then a whole text by an invariant on its bits. -/

namespace Sys2Proof.Machine

open Sys2Proof.Spec

/-! ### One character -/

/-- Presenting the word of a command of the block performs the command (R60, R63). -/
theorem step_offer_fields {i : Instr} {s : State} (hi : i.wellFormed s.params.hasEnc = true) :
    step (offer i.op.code i.fields.1 i.fields.2 s) = exec i s := by
  have hdec : decodeFields s.params.hasEnc i.op.code i.fields.1 i.fields.2 = .ok i :=
    (decodeFields_ok_iff _ _ _ _ _).2 ⟨rfl, rfl, hi⟩
  simp [step_offer, runWord, hdec]

/-- A word of a row of Table O is legal in the blocks that have the row, with legal operands (R65, R66). -/
theorem wordLegal_code (hasEnc : Bool) (o : Op) (a : Byte) (d : Word) :
    wordLegal hasEnc o.code a d = (o.present hasEnc && operandsLegal hasEnc o a d) := by
  simp [wordLegal, tableO_eq_ofCode?, reservedOpcode_code]

/-- An operand of one byte is given back whole by its low byte. -/
theorem setWidth_low_byte {d : Word} (hd : d.toNat < 256) : (d.setWidth 8).setWidth 64 = d :=
  BitVec.eq_of_toNat_eq (by rw [BitVec.toNat_setWidth, BitVec.toNat_setWidth]; omega)

/-- R94 and R96 as R91 writes them. -/
theorem pushSymbol_eq_b32PushEffect {c : Byte} {v : BitVec 5} {s : State} (hc : cls s.params.ws c = .sym v) :
    pushSymbol c v s = b32PushEffect c (c.setWidth 64) s := by
  have hbyte (n : Nat) : BitVec.ofNat 8 (n % 256) = BitVec.ofNat 8 n := BitVec.eq_of_toNat_eq (by simp)
  simp only [pushSymbol, b32PushEffect, hc, shiftLeft_or_eq _ _ 5 v.isLt, Nat.shiftRight_eq_div_pow, hbyte]
  by_cases hn : 8 ≤ s.nb.toNat + 5
  · rw [if_pos hn, if_neg (by omega : ¬ s.nb.toNat + 5 < 8)]
    exact ite_congr (propext (bufferFull_iff _ _)) (fun _ => rfl) fun _ => rfl
  · rw [if_neg hn, if_pos (by omega : s.nb.toNat + 5 < 8)]
    rfl

/-- R91, after the reserved bits. -/
theorem exec_b32Push (c : Byte) (s : State) : exec (.b32Push c) s =
    .next (if s.phase ≠ .build then refuse .wrongPhase s else b32PushEffect c (c.setWidth 64) s) := by
  simp only [exec, execB32Push]
  by_cases hp : s.phase = .build
  · rw [(inBuild_iff _).2 hp, requirePhase_true, if_neg (not_not.2 hp)]
    congr 1
    split
    · next hc => simp only [b32PushEffect, hc]; rfl
    · next hc => simp only [b32PushEffect, hc]; rfl
    · next v hc => exact pushSymbol_eq_b32PushEffect hc
  · rw [Bool.eq_false_of_not_eq_true (mt (inBuild_iff _).1 hp), requirePhase_false, if_pos hp]
    rfl

/-- Settles O17: the word's fields are those of the command (`step_offer_fields`), which does what R91 says. -/
theorem b32PushDecodesOneCharacter : Obligations.B32PushDecodesOneCharacter := by
  refine ⟨fun a d s => ?_, fun c s hp => by simp [exec_b32Push, hp]⟩
  split
  · next hbad =>
    refine step_offer_of_illegal ((wordLegal_code _ .b32Push a d).trans ?_)
    simp only [Op.present, operandsLegal, Bool.true_and, Bool.and_eq_false_iff, beq_eq_false_iff_ne,
      decide_eq_false_iff_not, not_lt]
    exact hbad
  · next hlegal =>
    obtain ⟨ha, hd⟩ := not_or.1 hlegal
    obtain rfl : a = 0#8 := BitVec.eq_of_toNat_eq (not_not.1 ha)
    have hback := setWidth_low_byte (not_le.1 hd)
    have hstep := step_offer_fields (i := .b32Push (d.setWidth 8)) (s := s) rfl
    rw [exec_b32Push] at hstep
    rwa [Instr.fields, hback] at hstep

/-! ### Bits, most significant first -/

@[simp] theorem length_bitsOf {w : Nat} (v : BitVec w) : (bitsOf v).length = w := by simp [bitsOf]

@[simp] theorem length_flatMap_bitsOf {w : Nat} (vs : List (BitVec w)) :
    (vs.flatMap bitsOf).length = w * vs.length := by
  simp [List.length_flatMap, Nat.mul_comm]

/-- The low `w` bits of a number, most significant first. -/
def lowBits (w n : Nat) : List Bool := bitsOf (BitVec.ofNat w n)

@[simp] theorem length_lowBits (w n : Nat) : (lowBits w n).length = w := length_bitsOf _

theorem lowBits_eq_map (w n : Nat) : lowBits w n = (List.range w).map fun i => n.testBit (w - 1 - i) :=
  List.map_congr_left fun i hi => by
    have hi := List.mem_range.1 hi
    rw [BitVec.getLsbD_ofNat, decide_eq_true (by omega), Bool.true_and]

/-- The bits of a number are those above bit `b` and then the low `b`. -/
theorem lowBits_add (a b n : Nat) : lowBits (a + b) n = lowBits a (n / 2 ^ b) ++ lowBits b n := by
  simp only [lowBits_eq_map, List.range_add, List.map_append, List.map_map, Function.comp_def,
    Nat.testBit_div_two_pow]
  congr 1
  · exact List.map_congr_left fun i hi => congrArg n.testBit (by have := List.mem_range.1 hi; omega)
  · exact List.map_congr_left fun i _ => congrArg n.testBit (by omega)

/-- Bits above the low `w` do not show in them. -/
theorem lowBits_mod {w m : Nat} (h : w ≤ m) (n : Nat) : lowBits w (n % 2 ^ m) = lowBits w n :=
  congrArg bitsOf (BitVec.eq_of_toNat_eq (by simp [Nat.mod_mod_of_dvd _ (pow_dvd_pow 2 h)]))

/-- R94: a symbol's five bits enter below those of the accumulator. -/
theorem lowBits_shift_in (w n : Nat) (v : BitVec 5) :
    lowBits (w + 5) (n * 2 ^ 5 + v.toNat) = lowBits w n ++ bitsOf v := by
  have hv := v.isLt
  rw [lowBits_add, show (n * 2 ^ 5 + v.toNat) / 2 ^ 5 = n by omega]
  exact congrArg _ (congrArg bitsOf (BitVec.eq_of_toNat_eq (by rw [BitVec.toNat_ofNat]; omega)))

/-- The bit string of a text: the bits of its symbols' values (R99). -/
def textBits (ws : List Byte) (text : List Byte) : List Bool := (symbolsOf ws text).flatMap bitsOf

theorem textBits_cons (ws : List Byte) (c : Byte) (text : List Byte) :
    textBits ws (c :: text) = textBits ws [c] ++ textBits ws text := by
  unfold textBits symbolsOf
  rw [← List.flatMap_append, ← List.filterMap_append, List.singleton_append]

@[simp] theorem length_textBits (ws text : List Byte) : (textBits ws text).length = 5 * (symbolsOf ws text).length :=
  length_flatMap_bitsOf _

theorem textBits_sym {ws : List Byte} {c : Byte} {v : BitVec 5} (h : cls ws c = .sym v) :
    textBits ws [c] = bitsOf v := by
  simp [textBits, symbolsOf, h]

theorem textBits_skip {ws : List Byte} {c : Byte} (h : cls ws c = .skip) : textBits ws [c] = [] := by
  simp [textBits, symbolsOf, h]

/-! ### The decoder's invariant -/

/-- Since the start `s₀` of a text the decoder has taken in `bits`: the whole bytes of them are the key, the rest stands
in the accumulator, and nothing else of `s₀` has changed but the ports (R94, R95). -/
structure Decoding (s₀ : State) (bits : List Bool) (s : State) : Prop where
  build   : s₀.phase = .build
  frame   : s = { s₀ with acc := s.acc, nb := s.nb, key := s.key, resp := s.resp, reqs := s.reqs }
  nb_le   : s.nb.toNat ≤ 7
  bits_eq : s.key.flatMap bitsOf ++ lowBits s.nb.toNat s.acc.toNat = bits

namespace Decoding

variable {s₀ s t : State} {bits : List Bool} {c : Byte}

/-- The decoder's start state has taken in nothing (R98). -/
theorem start (h : decoderFresh s) : Decoding s [] s := by
  obtain ⟨hp, hacc, hnb, hkey⟩ := h
  exact ⟨hp, rfl, by simp [hnb], by simp [hnb, hkey, lowBits, bitsOf]⟩

theorem params (h : Decoding s₀ bits s) : s.params = s₀.params := by rw [h.frame]

theorem phase (h : Decoding s₀ bits s) : s.phase = .build := by rw [h.frame, h.build]

/-- R95: `KLEN` counts the whole bytes, `NB` the bits over. -/
theorem counts (h : Decoding s₀ bits s) : s.key.length = bits.length / 8 ∧ s.nb.toNat = bits.length % 8 := by
  have hlen := congrArg List.length h.bits_eq
  have hnb := h.nb_le
  rw [List.length_append, length_flatMap_bitsOf, length_lowBits] at hlen
  omega

/-- R99: the key is the whole bytes of the bit string. -/
theorem key_bits (h : Decoding s₀ bits s) : s.key.flatMap bitsOf = bits.take (8 * (bits.length / 8)) := by
  conv_rhs => rw [← h.counts.1, ← h.bits_eq]
  rw [List.take_left' (length_flatMap_bitsOf _)]

/-- A change of the decoder's registers and the ports alone keeps the rest of the start state. -/
theorem frame_trans (h : Decoding s₀ bits s)
    (ht : t = { s with acc := t.acc, nb := t.nb, key := t.key, resp := t.resp, reqs := t.reqs }) :
    t = { s₀ with acc := t.acc, nb := t.nb, key := t.key, resp := t.resp, reqs := t.reqs } := by
  rw [h.frame] at ht
  exact ht

/-- R94: an accepted character adds the bits of its symbol, if it is one. -/
theorem accepted (h : Decoding s₀ bits s) (ha : Accepted s (.b32Push c) t) :
    Decoding s₀ (bits ++ textBits s₀.params.ws [c]) t := by
  have hnb := h.nb_le
  cases ha with
  | b32Skip _ hc =>
    rw [h.params] at hc
    rw [textBits_skip hc, List.append_nil]
    exact ⟨h.build, h.frame_trans rfl, hnb, h.bits_eq⟩
  | b32Collect _ v hc hn =>
    rw [h.params] at hc
    have hcount : (BitVec.ofNat 4 (s.nb.toNat + 5)).toNat = s.nb.toNat + 5 := by rw [BitVec.toNat_ofNat]; omega
    refine ⟨h.build, h.frame_trans rfl, by rw [respond_nb, hcount]; omega, ?_⟩
    rw [respond_nb, respond_acc, respond_key, hcount, BitVec.toNat_ofNat, lowBits_mod (by omega), lowBits_shift_in,
      textBits_sym hc, ← h.bits_eq, List.append_assoc]
  | b32Emit _ v hc hn hroom =>
    rw [h.params] at hc
    have hcount : (BitVec.ofNat 4 (s.nb.toNat + 5 - 8)).toNat = s.nb.toNat + 5 - 8 := by rw [BitVec.toNat_ofNat]; omega
    have hsplit := lowBits_add 8 (s.nb.toNat + 5 - 8) (s.acc.toNat * 2 ^ 5 + v.toNat)
    rw [show 8 + (s.nb.toNat + 5 - 8) = s.nb.toNat + 5 by omega, lowBits_shift_in] at hsplit
    refine ⟨h.build, h.frame_trans rfl, by rw [respond_nb, hcount]; omega, ?_⟩
    rw [respond_nb, respond_acc, respond_key, hcount, BitVec.toNat_ofNat, lowBits_mod (by omega), lowBits_mod le_rfl,
      textBits_sym hc, ← h.bits_eq, List.flatMap_append, List.flatMap_singleton, List.append_assoc, List.append_assoc,
      hsplit]
    rfl

/-- A character that is not invalid is accepted while its byte fits the key buffer (R92, R94, R96). -/
theorem push (h : Decoding s₀ bits s) (hc : cls s₀.params.ws c ≠ .invalid)
    (hroom : keyRoom s₀ ((bits ++ textBits s₀.params.ws [c]).length / 8)) :
    ∃ t, exec (.b32Push c) s = .next t ∧ Accepted s (.b32Push c) t := by
  obtain ⟨hklen, hnb⟩ := h.counts
  obtain ⟨t, ht, he⟩ := exec_next_effect (.b32Push c) s
  refine ⟨t, ht, ?_⟩
  cases he with
  | accepted hp ha => exact ha
  | refused hr =>
    cases hr with
    | absent _ hi => cases hi
    | phase _ hi => simp [Instr.op, tableA, h.phase] at hi
  | fatal hp hf =>
    rw [← h.params] at hc hroom
    cases hf with
    | character _ hinvalid => exact absurd hinvalid hc
    | keyFull _ v hsym hn hfull =>
      have hfits := hroom _ (h.params ▸ hfull)
      rw [textBits_sym hsym, List.length_append, length_bitsOf] at hfits
      omega

/-- A text without invalid characters whose bytes fit the key buffer is taken in whole (R95, R99). -/
theorem pushAll {text : List Byte} (h : Decoding s₀ bits s) (hvalid : ∀ c ∈ text, cls s₀.params.ws c ≠ .invalid)
    (hroom : keyRoom s₀ ((bits ++ textBits s₀.params.ws text).length / 8)) :
    ∃ t, performAll (text.map .b32Push) s = .next t ∧ Decoding s₀ (bits ++ textBits s₀.params.ws text) t := by
  induction text generalizing bits s with
  | nil => exact ⟨s, rfl, by simpa [textBits, symbolsOf] using h⟩
  | cons c text ih =>
    obtain ⟨hc, htext⟩ := List.forall_mem_cons.1 hvalid
    rw [textBits_cons, ← List.append_assoc] at hroom ⊢
    have hroomc : keyRoom s₀ ((bits ++ textBits s₀.params.ws [c]).length / 8) := fun m hm =>
      (Nat.div_le_div_right (by rw [List.length_append (as := _ ++ _)]; omega)).trans (hroom m hm)
    obtain ⟨t, ht, ha⟩ := h.push hc hroomc
    simpa [performAll, ht] using ih (h.accepted ha) htext hroom

end Decoding

/-! ### Whole texts -/

/-- Commands that end in a next state hand it to the commands after them. -/
theorem performAll_append {is js : List Instr} {s t : State} (h : performAll is s = .next t) :
    performAll (is ++ js) s = performAll js t := by
  induction is generalizing s with
  | nil => cases h; rfl
  | cons i is ih =>
    obtain ⟨u, hu⟩ := exec_next i s
    simp only [List.cons_append, performAll, hu] at h ⊢
    exact ih h

/-- A text is pushed by pushing what stands before a character, the character and what stands after it. -/
theorem performAll_b32Push_append_cons {before after : List Byte} {c : Byte} {s t u : State}
    (hbefore : performAll (before.map .b32Push) s = .next t) (hc : exec (.b32Push c) t = .next u) :
    performAll ((before ++ c :: after).map .b32Push) s = performAll (after.map .b32Push) u := by
  rw [List.map_append, performAll_append hbefore, List.map_cons, performAll, hc]

/-- Outside BUILD characters are refused and change nothing but `PERR` and the ports (R91, R193). -/
theorem performAll_b32Push_refused {s : State} (hp : s.phase ≠ .build) (text : List Byte) :
    ∃ b q r, performAll (text.map .b32Push) s = .next { s with perr := b, resp := q, reqs := r } := by
  induction text generalizing s with
  | nil => exact ⟨s.perr, s.resp, s.reqs, rfl⟩
  | cons c text ih =>
    obtain ⟨b, q, r, ht⟩ := ih (s := refuse .wrongPhase s) hp
    refine ⟨b, q, r, ?_⟩
    simp only [List.map_cons, performAll, exec_b32Push, if_pos hp, ht]
    rfl

/-- From a fresh decoder, a text that fits leaves its bits (R99). -/
theorem decoding_of_fresh {s : State} {text : List Byte} (hs : decoderFresh s)
    (hvalid : ∀ c ∈ text, cls s.params.ws c ≠ .invalid)
    (hroom : keyRoom s (5 * (symbolsOf s.params.ws text).length / 8)) :
    ∃ t, performAll (text.map .b32Push) s = .next t ∧ Decoding s (textBits s.params.ws text) t :=
  (Decoding.start hs).pushAll hvalid (by simpa using hroom)

/-- `COMMIT` in BUILD (R172). -/
theorem exec_commit_of_build {s : State} (hp : s.phase = .build) : exec .commit s =
    .next (respond 0#8 (lengthWord s.key.length) { s with acc := 0#12, nb := 0#4, phase := .ready }) := by
  simp [exec, execCommit, (inBuild_iff _).2 hp]

/-- Settles O21: the bits of the text by the invariant `Decoding`; after an invalid character every other is refused. -/
theorem decoderGivesWholeBytesOfTheText : Obligations.DecoderGivesWholeBytesOfTheText := by
  refine ⟨fun s text hs hvalid hroom => ?_, fun s before after c hs hvalid hroom hc => ?_⟩
  · obtain ⟨t, ht, h⟩ := decoding_of_fresh hs hvalid hroom
    obtain ⟨hklen, hnb⟩ := h.counts
    have hkey := h.key_bits
    rw [length_textBits] at hklen hnb hkey
    exact ⟨t, _, ht, h.phase, hklen, hnb, hkey, exec_commit_of_build h.phase, rfl, rfl, rfl, rfl⟩
  · obtain ⟨t, ht, h⟩ := decoding_of_fresh hs hvalid hroom
    have hfail : exec (.b32Push c) t = .next (failWith .invalidEncoding 1#8 0x20#8 (c.setWidth 64) t) := by
      simp [exec_b32Push, h.phase, b32PushEffect, h.params, hc]
    obtain ⟨b, q, r, hrest⟩ := performAll_b32Push_refused
      (s := failWith .invalidEncoding 1#8 0x20#8 (c.setWidth 64) t) (by simp [failWith]) after
    exact ⟨_, (performAll_b32Push_append_cons ht hfail).trans hrest, rfl, rfl, rfl, rfl, rfl⟩

/-! ### The full key buffer -/

/-- R96: a symbol whose byte finds the key buffer full fails the construction. -/
theorem exec_b32Push_keyFull {s : State} {c : Byte} {v : BitVec 5} (hp : s.phase = .build)
    (hc : cls s.params.ws c = .sym v) (hn : 8 ≤ s.nb.toNat + 5) (hfull : s.params.kmax = some s.key.length) :
    exec (.b32Push c) s = .next (failWith .keyOverflow 5#8 0x20#8 (c.setWidth 64) s) := by
  simp [exec_b32Push, hp, b32PushEffect, hc, hfull, not_lt.2 hn]

/-- Every character of a text of symbols gives one. -/
theorem length_symbolsOf_of_sym {ws text : List Byte} (h : ∀ b ∈ text, ∃ v, cls ws b = .sym v) :
    (symbolsOf ws text).length = text.length := by
  induction text with
  | nil => rfl
  | cons b text ih =>
    obtain ⟨⟨v, hv⟩, htext⟩ := List.forall_mem_cons.1 h
    simpa [symbolsOf, hv] using ih htext

/-- An unbounded key buffer never overflows (R96). -/
theorem exec_b32Push_unbounded {s t : State} {c : Byte} (hk : s.params.kmax = none)
    (h : exec (.b32Push c) s = .next t) : t.lastStatus ≠ some .keyOverflow := by
  intro hst
  obtain ⟨e, he, -, hf, -⟩ | ⟨e, s', he, -, -⟩ | ⟨he, -⟩ := exec_ends h hst
  · cases hf with
    | character => cases he
    | keyFull _ v hc hn hfull => simp [hk] at hfull
  · cases e <;> cases he
  · cases he

/-- Settles O22: R95's counts say when the buffer is full and which symbol needs one more byte. -/
theorem fullKeyBufferFailsTheConstruction : Obligations.FullKeyBufferFailsTheConstruction := by
  refine ⟨fun s text c m hs hk hsym hle hlt => ?_, fun s c v hp hc hn hfull => exec_b32Push_keyFull hp hc hn hfull,
    fun s c hk => ?_, by decide⟩
  · have htext : ∀ b ∈ text, ∃ v, cls s.params.ws b = .sym v := fun b hb => hsym b (List.mem_append_left _ hb)
    obtain ⟨v, hc⟩ := hsym c (by simp)
    have hlen := length_symbolsOf_of_sym htext
    obtain ⟨t, ht, h⟩ := decoding_of_fresh hs
      (fun b hb => by obtain ⟨v, hv⟩ := htext b hb; simp [hv])
      (fun m' hm' => by rw [hlen, ← Option.some.inj (hk.symm.trans hm')]; exact hle)
    obtain ⟨hklen, hnb⟩ := h.counts
    rw [length_textBits, hlen] at hklen hnb
    have hfull : t.params.kmax = some t.key.length := by rw [h.params, hk]; congr 1; omega
    have hfail := exec_b32Push_keyFull h.phase (h.params ▸ hc) (by omega) hfull
    exact ⟨_, performAll_b32Push_append_cons ht hfail, rfl, rfl, rfl, rfl, rfl, rfl⟩
  · obtain ⟨t, ht⟩ := exec_next (.b32Push c) s
    exact ⟨t, ht, exec_b32Push_unbounded hk ht⟩

end Sys2Proof.Machine

/-! Proofs. The Base32 encoder: its three commands as R111 to R113 write them, their independence of the rest of the
block, and a whole byte sequence by the bits its characters spell. -/

namespace Sys2Proof.Machine

open Sys2Proof.Spec

/-! ### The three commands -/

/-- Table A32 as the statements list it is the model's symbol. -/
theorem symChar_eq_symbol (v : BitVec 5) : symChar v = symbol v.toNat := by revert v; decide

theorem symChar_ofNat (n : Nat) : symChar (BitVec.ofNat 5 n) = symbol (n % 32) := by
  rw [symChar_eq_symbol, BitVec.toNat_ofNat]

/-- One turn of the loop of R112. -/
theorem emitGroups_succ {fuel nb : Nat} (acc : Nat) (h : 5 ≤ nb) : emitGroups (fuel + 1) acc nb =
    (symbol (acc / 2 ^ (nb - 5) % 32) :: (emitGroups fuel acc (nb - 5)).1, (emitGroups fuel acc (nb - 5)).2) := by
  simp [emitGroups, h, symChar_ofNat]

/-- R111 after its checks. -/
theorem exec_encClr {s : State} (henc : s.params.hasEnc = true) :
    exec .encClr s = .next (answer 0#8 0#64 { s with eacc := 0#12, enb := 0#4 }) := by
  rw [exec, execEncClr, requireEncoder_present _ henc]
  rfl

/-- R112 after its checks, with its loop. -/
theorem exec_encPush_emitGroups {s : State} {b : Byte} {acc nb : Nat} {out : List Byte × Nat}
    (henc : s.params.hasEnc = true) (hacc : acc = s.eacc.toNat * 2 ^ 8 + b.toNat) (hnb : nb = s.enb.toNat + 8)
    (hout : out = emitGroups nb acc nb) : exec (.encPush b) s =
      .next (respond (BitVec.ofNat 8 out.1.length) (packString out.1)
        { s with eacc := BitVec.ofNat 12 (acc % 2 ^ out.2), enb := BitVec.ofNat 4 out.2 }) := by
  subst hacc hnb hout
  rw [exec, execEncPush, requireEncoder_present _ henc]

/-- R112 after its checks, the loop run: once for 8 or 9 counted bits, twice for 10 to 12. -/
theorem exec_encPush {s : State} (b : Byte) (henc : s.params.hasEnc = true) (hle : s.enb.toNat ≤ 4) :
    exec (.encPush b) s = .next (encPushEffect b s) := by
  rw [exec_encPush_emitGroups henc rfl rfl rfl, emitGroups_succ _ (by omega : 5 ≤ s.enb.toNat + 8)]
  simp only [encPushEffect, shiftLeft_or_eq _ _ 8 b.isLt, Nat.shiftRight_eq_div_pow]
  by_cases hone : s.enb.toNat + 8 < 10
  · rw [if_pos hone, emitGroups_few _ _ _ (by omega)]
    rfl
  · rw [if_neg hone, emitGroups_succ _ (by omega : 5 ≤ s.enb.toNat + 8 - 5), emitGroups_few _ _ _ (by omega),
      Nat.sub_sub]
    rfl

/-- R113 after its checks. -/
theorem exec_encEnd {s : State} (henc : s.params.hasEnc = true) : exec .encEnd s = .next (encEndEffect s) := by
  rw [exec, execEncEnd, requireEncoder_present _ henc, encEndEffect, symChar_ofNat, Nat.shiftLeft_eq]
  by_cases hnb : s.enb = 0#4
  · rw [if_pos hnb, if_neg (by simp [hnb])]
    rfl
  · rw [if_neg hnb, if_pos (Nat.pos_of_ne_zero fun h => hnb (BitVec.eq_of_toNat_eq h))]
    rfl

/-- A word of a row of Table O is refused when its fields are not legal, and is performed when they are those of `i`. -/
theorem step_offer_eq_ite {i : Instr} {a : Byte} {d : Word} {s u : State} {bad : Prop} [Decidable bad]
    (hbad : bad → (i.op.present s.params.hasEnc && operandsLegal s.params.hasEnc i.op a d) = false)
    (hgood : ¬ bad → i.fields = (a, d) ∧ i.wellFormed s.params.hasEnc = true ∧ exec i s = .next u) :
    step (offer i.op.code a d s) = .next (if bad then refuse .illegalCommand s else u) := by
  split
  · next h => exact step_offer_of_illegal ((wordLegal_code _ _ _ _).trans (hbad h))
  · next h =>
    obtain ⟨hf, hi, hexec⟩ := hgood h
    rw [← hexec, ← step_offer_fields hi, hf]

/-- The word of an encoder's command without an operand (R65, R66). -/
theorem step_offer_encoder_none {i : Instr} {a : Byte} {d : Word} {s u : State} (hi : i = .encClr ∨ i = .encEnd)
    (hexec : s.params.hasEnc = true → exec i s = .next u) : step (offer i.op.code a d s) =
      .next (if s.params.hasEnc = false ∨ a.toNat ≠ 0 ∨ d.toNat ≠ 0 then refuse .illegalCommand s else u) := by
  refine step_offer_eq_ite (fun hbad => ?_) (fun hgood => ?_)
  · obtain rfl | rfl := hi <;>
      simpa only [Instr.op, Op.present, operandsLegal, Bool.and_eq_false_iff, beq_eq_false_iff_ne] using hbad
  · simp only [not_or, not_not, Bool.not_eq_false] at hgood
    obtain ⟨henc, ha, hd⟩ := hgood
    obtain rfl : a = 0#8 := BitVec.eq_of_toNat_eq ha
    obtain rfl : d = 0#64 := BitVec.eq_of_toNat_eq hd
    obtain rfl | rfl := hi <;> exact ⟨rfl, (Bool.and_true _).trans henc, hexec henc⟩

/-- Settles O19: the three commands run (`exec_encClr`, `exec_encPush`, `exec_encEnd`), presented by their words. -/
theorem encoderEmitsFiveBitGroups : Obligations.EncoderEmitsFiveBitGroups := by
  refine ⟨fun a d s => step_offer_encoder_none (i := .encClr) (.inl rfl) exec_encClr, fun a d s hle => ?_,
    fun a d s => step_offer_encoder_none (i := .encEnd) (.inr rfl) exec_encEnd,
    fun b s henc => ⟨exec_encClr henc, exec_encPush b henc, exec_encEnd henc⟩⟩
  refine step_offer_eq_ite (i := .encPush (d.setWidth 8)) (fun hbad => ?_) (fun hgood => ?_)
  · simpa only [Instr.op, Op.present, operandsLegal, Bool.and_eq_false_iff, beq_eq_false_iff_ne,
      decide_eq_false_iff_not, not_lt] using hbad
  · simp only [not_or, not_not, Bool.not_eq_false, not_le] at hgood
    obtain ⟨henc, ha, hd⟩ := hgood
    obtain rfl : a = 0#8 := BitVec.eq_of_toNat_eq ha
    exact ⟨by rw [Instr.fields, setWidth_low_byte hd], (Bool.and_true _).trans henc, exec_encPush _ henc hle⟩

/-! ### Independence of the rest of the block -/

/-- With the unit an encoder's command is accepted in every phase (R110). -/
theorem encoder_accepted {i : Instr} {s t : State} (hi : i.op = .encClr ∨ i.op = .encPush ∨ i.op = .encEnd)
    (henc : s.params.hasEnc = true) (h : exec i s = .next t) : Accepted s i t := by
  cases exec_effect h with
  | accepted hp ha => exact ha
  | fatal hp hf => cases hf <;> simp [Instr.op] at hi
  | refused hr =>
    cases hr with
    | absent _ habsent =>
      cases i with
      | encClr | encPush | encEnd => simp [Instr.wellFormed, Instr.op, Op.present, henc] at habsent
      | _ => simp [Instr.op] at hi
    | phase _ hphase => obtain ho | ho | ho := hi <;> simp [ho, tableA] at hphase
    | candidateCut | digestUnusable | candidateFull | digestFull => simp [Instr.op] at hi

/-- R110: an encoder's command writes `EACC` and `ENB`, the ports, and `PERR` when it is refused. -/
theorem encoder_frame {i : Instr} {s t : State} (hi : i.op = .encClr ∨ i.op = .encPush ∨ i.op = .encEnd)
    (h : exec i s = .next t) :
    t = { s with eacc := t.eacc, enb := t.enb, perr := t.perr, resp := t.resp, reqs := t.reqs } := by
  cases exec_effect h with
  | fatal hp hf => cases hf <;> simp [Instr.op] at hi
  | refused hr =>
    rw [hr.frame]
    obtain ho | ho | ho := hi <;> simp [ho, raiseRefusal]
  | accepted hp ha =>
    cases ha with
    | encClr | encPush | encEndEmpty | encEndRest => rfl
    | _ => simp [Instr.op] at hi

/-- R110: what an encoder's command answers and leaves in its registers is a function of `EACC` and `ENB`. -/
theorem encoder_congr {i : Instr} {s s' t t' : State} (hi : i.op = .encClr ∨ i.op = .encPush ∨ i.op = .encEnd)
    (heacc : s.eacc = s'.eacc) (henb : s.enb = s'.enb) (h : Accepted s i t) (h' : Accepted s' i t') :
    t.resp = t'.resp ∧ t.eacc = t'.eacc ∧ t.enb = t'.enb := by
  cases h with
  | encClr => cases h'; exact ⟨rfl, rfl, rfl⟩
  | encPush b _ acc nb out hacc hnb hout =>
    cases h'
    subst_vars
    simp [heacc, henb]
  | encEndEmpty _ hn =>
    cases h' with
    | encEndEmpty => exact ⟨rfl, heacc, henb⟩
    | encEndRest _ hn' => exact absurd (henb ▸ hn) hn'
  | encEndRest _ hn =>
    cases h' with
    | encEndEmpty _ hn' => exact absurd (henb ▸ hn') hn
    | encEndRest => simp [heacc, henb]
  | _ => simp [Instr.op] at hi

/-- The state with other contents in the encoder's registers. -/
def withEncoder (eacc : BitVec 12) (enb : BitVec 4) (s : State) : State := { s with eacc := eacc, enb := enb }

/-- Other contents of the encoder's registers pass through a branching whose branches they pass through. -/
theorem ite_withEncoder {e : BitVec 12} {n : BitVec 4} {p : Prop} [Decidable p] {a b a' b' : State}
    (ha : a' = withEncoder e n a) (hb : b' = withEncoder e n b) :
    (if p then a' else b') = withEncoder e n (if p then a else b) := by
  rw [ha, hb, apply_ite (withEncoder e n)]

theorem requirePhase_withEncoder {e : BitVec 12} {n : BitVec 4} {allowed : Bool} {body body' s : State}
    (h : body' = withEncoder e n body) :
    requirePhase allowed body' (withEncoder e n s) = withEncoder e n (requirePhase allowed body s) :=
  ite_withEncoder h rfl

/-- R110: any other command but `RD ENB` does the same whatever the encoder holds, and leaves it there. -/
theorem exec_withEncoder {i : Instr} (s : State) (e : BitVec 12) (n : BitVec 4) (hclr : i.op ≠ .encClr)
    (hpush : i.op ≠ .encPush) (hend : i.op ≠ .encEnd) (hrd : i ≠ .rd .enb) :
    ∃ t, exec i s = .next t ∧ exec i (withEncoder e n s) = .next (withEncoder e n t) := by
  cases i with
  | init => exact ⟨_, rfl, rfl⟩
  | encClr => exact absurd rfl hclr
  | encPush => exact absurd rfl hpush
  | encEnd => exact absurd rfl hend
  | rd k =>
    have hread : readReg k (withEncoder e n s) = readReg k s := by
      cases k with
      | enb => exact absurd rfl hrd
      | _ => rfl
    have hcount : readCount k (withEncoder e n s) = readCount k s := by cases k <;> rfl
    exact ⟨_, rfl, congrArg Host.Outcome.next (ite_withEncoder (by rw [hread, hcount]; rfl) rfl)⟩
  | commit | dgstClr | hotpCompute | totpWin | candClr =>
    exact ⟨_, rfl, congrArg Host.Outcome.next (requirePhase_withEncoder rfl)⟩
  | totpCtr x | totpRem x | totpGen x =>
    exact ⟨_, rfl, congrArg Host.Outcome.next (requirePhase_withEncoder (by cases x <;> rfl))⟩
  | totpVerify x =>
    exact ⟨_, rfl, congrArg Host.Outcome.next (requirePhase_withEncoder (ite_withEncoder rfl (by cases x <;> rfl)))⟩
  | cfgDigits | cfgPeriod | dgstPush | hotpTrunc | candPush =>
    exact ⟨_, rfl, congrArg Host.Outcome.next (requirePhase_withEncoder (ite_withEncoder rfl rfl))⟩
  | cfgAlg v =>
    refine ⟨_, rfl, congrArg Host.Outcome.next (requirePhase_withEncoder ?_)⟩
    cases algOfCode? v <;> rfl
  | b32Push c =>
    refine ⟨_, rfl, congrArg Host.Outcome.next (requirePhase_withEncoder ?_)⟩
    simp only [withEncoder]
    cases cls s.params.ws c with
    | skip | invalid => rfl
    | sym v => exact ite_withEncoder (ite_withEncoder rfl rfl) rfl

/-- `RD` writes no register of the encoder. -/
theorem exec_rd_encoder {k : Reg} {s t : State} (h : exec (.rd k) s = .next t) : t.eacc = s.eacc ∧ t.enb = s.enb := by
  cases exec_effect h with
  | fatal hp hf => cases hf
  | refused hr => rw [hr.frame]; exact ⟨rfl, rfl⟩
  | accepted hp ha => cases ha; exact ⟨rfl, rfl⟩

/-- R110: no other command writes the encoder's registers: one that is indifferent to their contents leaves in them what
it was given. -/
theorem other_keeps_encoder {i : Instr} {s t : State} (hclr : i.op ≠ .encClr) (hpush : i.op ≠ .encPush)
    (hend : i.op ≠ .encEnd) (h : exec i s = .next t) : t.eacc = s.eacc ∧ t.enb = s.enb := by
  by_cases hrd : i = .rd .enb
  · exact exec_rd_encoder (hrd ▸ h)
  · obtain ⟨u, -, hu⟩ := exec_withEncoder s s.eacc s.enb hclr hpush hend hrd
    obtain rfl : t = withEncoder s.eacc s.enb u := Host.Outcome.next.inj (h.symm.trans hu)
    exact ⟨rfl, rfl⟩

/-- Settles O20: what the encoder's commands write and depend on, and what the others do with its registers. -/
theorem encoderIsIndependentOfTheInstance : Obligations.EncoderIsIndependentOfTheInstance := by
  refine ⟨fun i s t hi h => encoder_frame hi h, fun i s t hclr hpush hend h => ?_,
    fun i s s' hi henc henc' heacc henb => ?_, rfl, rfl, rfl, rfl⟩
  · obtain ⟨heacc, henb⟩ := other_keeps_encoder hclr hpush hend h
    refine ⟨heacc, henb, fun hrd e n => ?_⟩
    obtain ⟨u, hu, hu'⟩ := exec_withEncoder s e n hclr hpush hend hrd
    obtain rfl : t = u := Host.Outcome.next.inj (h.symm.trans hu)
    exact hu'
  · obtain ⟨t, ht⟩ := exec_next i s
    obtain ⟨t', ht'⟩ := exec_next i s'
    have ha := encoder_accepted hi henc ht
    obtain ⟨hresp, heacc', henb'⟩ := encoder_congr hi heacc henb ha (encoder_accepted hi henc' ht')
    exact ⟨t, t', ht, ht', hresp, heacc', henb', ha.lastStatus, ha.perr⟩

/-! ### Packed strings -/

/-- R62: byte `j` of a packed string of up to 8 bytes. -/
theorem packString_byte {cs : List Byte} {j : Nat} (hlen : cs.length ≤ 8) (hj : j < cs.length) :
    (packString cs).extractLsb' (56 - 8 * j) 8 = cs[j] := by
  have hpad : (cs ++ List.replicate (8 - cs.length) 0#8).length = 8 := by simp; omega
  have hbyte := be_digit (cs ++ List.replicate (8 - cs.length) 0#8) j (by omega)
  have hlt := be_lt (cs ++ List.replicate (8 - cs.length) 0#8)
  rw [hpad] at hbyte hlt
  rw [List.getD_append _ _ _ _ hj, List.getD_eq_getElem _ _ hj,
    show (256 : Nat) ^ (8 - 1 - j) = 2 ^ (56 - 8 * j) by rw [show 56 - 8 * j = 8 * (8 - 1 - j) by omega, pow_mul]; rfl]
    at hbyte
  apply BitVec.eq_of_toNat_eq
  rw [BitVec.extractLsb'_toNat, packString, BitVec.toNat_ofNat, Nat.shiftRight_eq_div_pow,
    Nat.mod_eq_of_lt (b := 2 ^ 64) (by simpa using hlt)]
  exact hbyte

/-- R62: a string answer of up to 8 characters shows them. -/
theorem answerChars_respond {cs : List Byte} (hlen : cs.length ≤ 8) (s : State) :
    answerChars (respond (BitVec.ofNat 8 cs.length) (packString cs) s) = cs := by
  have hn : (BitVec.ofNat 8 cs.length).toNat = cs.length := by rw [BitVec.toNat_ofNat]; omega
  simp only [answerChars, respond_resp, hn]
  refine List.ext_getElem (by simp) fun j hj hj' => ?_
  rw [List.getElem_map, List.getElem_range, packString_byte hlen hj']

/-! ### Symbols and the bits they spell -/

/-- The text of a list of symbol values (Table A32). -/
def symbols (vs : List (BitVec 5)) : List Byte := vs.map fun v => symbol v.toNat

@[simp] theorem length_symbols (vs : List (BitVec 5)) : (symbols vs).length = vs.length := by simp [symbols]

theorem symbols_cons (v : BitVec 5) (vs : List (BitVec 5)) : symbols (v :: vs) = symbol v.toNat :: symbols vs := rfl

@[simp] theorem symbols_append (vs ws : List (BitVec 5)) : symbols (vs ++ ws) = symbols vs ++ symbols ws :=
  List.map_append

/-- Table A32 has capital letters and the digits 2 to 7. -/
theorem symbol_range (v : BitVec 5) :
    (0x41 ≤ (symbol v.toNat).toNat ∧ (symbol v.toNat).toNat ≤ 0x5A) ∨
      (0x32 ≤ (symbol v.toNat).toNat ∧ (symbol v.toNat).toNat ≤ 0x37) := by
  revert v; decide

/-- R112: a byte's bits enter below those of the accumulator. -/
theorem lowBits_append_bitsOf {k : Nat} (w n : Nat) (v : BitVec k) :
    lowBits (w + k) (n * 2 ^ k + v.toNat) = lowBits w n ++ bitsOf v := by
  rw [lowBits_add, Nat.add_comm (n * 2 ^ k), Nat.add_mul_div_right _ _ (by positivity), Nat.div_eq_of_lt v.isLt,
    Nat.zero_add]
  exact congrArg _ (congrArg bitsOf (BitVec.eq_of_toNat_eq (by simp [Nat.mod_eq_of_lt v.isLt])))

/-- R113: a group filled at its low end has the bits it held and then zeros. -/
theorem lowBits_filled (w k n : Nat) : lowBits (w + k) (n * 2 ^ k) = lowBits w n ++ List.replicate k false := by
  have hzero : bitsOf 0#k = List.replicate k false := by simp [bitsOf]
  simpa [hzero] using lowBits_append_bitsOf w n 0#k

/-- The loop of R112 takes the counted bits away in groups of five, most significant first, down to fewer than five. -/
theorem emitGroups_spells {fuel acc nb : Nat} (h : nb < 5 * (fuel + 1)) :
    ∃ vs, emitGroups fuel acc nb = (symbols vs, nb % 5) ∧
      vs.flatMap bitsOf ++ lowBits (nb % 5) acc = lowBits nb acc := by
  induction fuel generalizing nb with
  | zero => exact ⟨[], by simp [emitGroups, symbols, Nat.mod_eq_of_lt h], by simp [Nat.mod_eq_of_lt h]⟩
  | succ fuel ih =>
    by_cases hfew : nb < 5
    · exact ⟨[], by simp [emitGroups_few _ _ _ hfew, symbols, Nat.mod_eq_of_lt hfew], by simp [Nat.mod_eq_of_lt hfew]⟩
    · obtain ⟨vs, hvs, hbits⟩ := ih (nb := nb - 5) (by omega)
      have hmod : nb % 5 = (nb - 5) % 5 := by omega
      refine ⟨BitVec.ofNat 5 (acc / 2 ^ (nb - 5)) :: vs, ?_, ?_⟩
      · rw [emitGroups_succ _ (by omega), hvs, hmod, symbols_cons, BitVec.toNat_ofNat]
      · rw [List.flatMap_cons, List.append_assoc, hmod, hbits]
        exact (lowBits_add 5 (nb - 5) acc).symm.trans (by rw [show 5 + (nb - 5) = nb by omega])

/-! ### Whole byte sequences -/

/-- The counted bits the encoder holds (R22). -/
def encoderBits (s : State) : List Bool := lowBits s.enb.toNat s.eacc.toNat

/-- From `s` the encoder has taken in a byte and answered in `t` the symbols `vs`, which spell all its bits but the fewer
than five it still holds. -/
structure Pushed (s : State) (b : Byte) (vs : List (BitVec 5)) (t : State) : Prop where
  params : t.params = s.params
  enb    : t.enb.toNat = (s.enb.toNat + 8) % 5
  chars  : answerChars t = symbols vs
  bits   : vs.flatMap bitsOf ++ encoderBits t = encoderBits s ++ bitsOf b

/-- R112 on the bits the encoder holds. -/
theorem exec_encPush_pushed {s : State} (b : Byte) (henc : s.params.hasEnc = true) (hle : s.enb.toNat ≤ 4) :
    ∃ t vs, exec (.encPush b) s = .next t ∧ Pushed s b vs t := by
  obtain ⟨vs, hout, hbits⟩ := emitGroups_spells (fuel := s.enb.toNat + 8) (acc := s.eacc.toNat * 2 ^ 8 + b.toNat)
    (nb := s.enb.toNat + 8) (by omega)
  have hlen := congrArg List.length hbits
  rw [List.length_append, length_flatMap_bitsOf, length_lowBits, length_lowBits] at hlen
  have hrest : (BitVec.ofNat 4 ((s.enb.toNat + 8) % 5)).toNat = (s.enb.toNat + 8) % 5 := by
    rw [BitVec.toNat_ofNat]; omega
  refine ⟨_, vs, exec_encPush_emitGroups henc rfl rfl hout.symm, rfl, hrest,
    answerChars_respond (by rw [length_symbols]; omega) _, ?_⟩
  rw [lowBits_append_bitsOf] at hbits
  simp only [encoderBits, respond_enb, respond_eacc, hrest, BitVec.toNat_ofNat]
  rw [lowBits_mod (by omega), lowBits_mod le_rfl, hbits]

/-- R113: the end of a text spells the bits still held, filled with zeros to a whole group. -/
theorem exec_encEnd_spells {s : State} (henc : s.params.hasEnc = true) (hle : s.enb.toNat ≤ 4) :
    ∃ t vs, exec .encEnd s = .next t ∧ answerChars t = symbols vs ∧
      vs.flatMap bitsOf = encoderBits s ++ List.replicate ((5 - s.enb.toNat % 5) % 5) false := by
  rw [exec_encEnd henc, encEndEffect]
  split
  · next hpos =>
    refine ⟨_, [BitVec.ofNat 5 (s.eacc.toNat * 2 ^ (5 - s.enb.toNat))], rfl, ?_, ?_⟩
    · rw [symbols, List.map_singleton, BitVec.toNat_ofNat, Nat.shiftLeft_eq]
      exact answerChars_respond (by simp) _
    · have hfill := lowBits_filled s.enb.toNat (5 - s.enb.toNat) s.eacc.toNat
      rw [show s.enb.toNat + (5 - s.enb.toNat) = 5 by omega] at hfill
      rw [List.flatMap_singleton, show (5 - s.enb.toNat % 5) % 5 = 5 - s.enb.toNat by omega]
      exact hfill
  · next hzero =>
    have hnb : s.enb.toNat = 0 := by omega
    exact ⟨_, [], rfl, rfl, by simp [encoderBits, hnb, lowBits, bitsOf]⟩

/-- R114 from any state of the encoder: the text spells the bits held, those of the bytes, and the filling zeros. -/
theorem encodeFrom_spells {x : List Byte} {s : State} (henc : s.params.hasEnc = true) (hle : s.enb.toNat ≤ 4) :
    ∃ vs, encodeFrom s x = symbols vs ∧ vs.flatMap bitsOf = encoderBits s ++ x.flatMap bitsOf ++
      List.replicate ((5 - (s.enb.toNat + 8 * x.length) % 5) % 5) false := by
  induction x generalizing s with
  | nil =>
    obtain ⟨t, vs, ht, hchars, hbits⟩ := exec_encEnd_spells henc hle
    exact ⟨vs, by simp [encodeFrom, ht, hchars], by simpa using hbits⟩
  | cons b x ih =>
    obtain ⟨t, vs, ht, h⟩ := exec_encPush_pushed b henc hle
    have henb := h.enb
    obtain ⟨ws, hws, hbits⟩ := ih (s := t) (h.params ▸ henc) (by omega)
    refine ⟨vs ++ ws, by simp [encodeFrom, ht, h.chars, hws], ?_⟩
    have hfill : (t.enb.toNat + 8 * x.length) % 5 = (s.enb.toNat + 8 * (b :: x).length) % 5 := by
      rw [henb, List.length_cons]; omega
    rw [List.flatMap_append, hbits, hfill, ← List.append_assoc, ← List.append_assoc, h.bits, List.flatMap_cons,
      List.append_assoc (encoderBits s)]

/-- R112, R114: `ENB` counts the bits taken in modulo five. -/
theorem performAll_encPush {x : List Byte} {s : State} (henc : s.params.hasEnc = true) (hle : s.enb.toNat ≤ 4) :
    ∃ t, performAll (x.map .encPush) s = .next t ∧ t.enb.toNat = (s.enb.toNat + 8 * x.length) % 5 := by
  induction x generalizing s with
  | nil => exact ⟨s, rfl, by simp; omega⟩
  | cons b x ih =>
    obtain ⟨t, vs, ht, h⟩ := exec_encPush_pushed b henc hle
    have henb := h.enb
    obtain ⟨u, hu, hcount⟩ := ih (s := t) (h.params ▸ henc) (by omega)
    exact ⟨u, by simpa [performAll, ht] using hu, by rw [hcount, henb, List.length_cons]; omega⟩

/-- R114: `b32_encode` spells the bits of the bytes and the filling zeros. -/
theorem b32Encode_spells {s : State} (x : List Byte) (henc : s.params.hasEnc = true) :
    ∃ vs, b32Encode s x = symbols vs ∧
      vs.flatMap bitsOf = x.flatMap bitsOf ++ List.replicate ((5 - 8 * x.length % 5) % 5) false := by
  have hcleared := encodeFrom_spells (x := x) (s := answer 0#8 0#64 { s with eacc := 0#12, enb := 0#4 }) henc
    (Nat.zero_le 4)
  simpa [b32Encode, exec_encClr henc, encoderBits, answer, lowBits, bitsOf] using hcleared

/-- Settles O23: the bits by `b32Encode_spells`; their number gives the length, and each value a symbol's range. -/
theorem encoderSpellsTheBitsOfTheBytes : Obligations.EncoderSpellsTheBitsOfTheBytes := by
  intro s x henc
  obtain ⟨vs, hvs, hbits⟩ := b32Encode_spells x henc
  obtain ⟨t, ht, hcount⟩ := performAll_encPush (x := x) (s := answer 0#8 0#64 { s with eacc := 0#12, enb := 0#4 }) henc
    (Nat.zero_le 4)
  have hlen := congrArg List.length hbits
  rw [List.length_append, length_flatMap_bitsOf, length_flatMap_bitsOf, List.length_replicate] at hlen
  refine ⟨by rw [hvs, length_symbols]; omega, vs, hvs, hbits, fun c hc => ?_, t, ?_, by simpa [answer] using hcount⟩
  · rw [hvs] at hc
    obtain ⟨v, -, rfl⟩ := List.mem_map.1 hc
    exact symbol_range v
  · rw [performAll, exec_encClr henc]
    exact ht

end Sys2Proof.Machine

/-! Proofs. The truncation engine: the results of `dt` in exact arithmetic, the two commands that answer a code, and the
counter's bytes. -/

namespace Sys2Proof.Machine

open Sys2Proof.Spec

/-! ### The results of `dt` -/

/-- R123: the low nibble of the last byte is that byte modulo 16. -/
theorem truncOffset_toNat (g : List Byte) : (truncOffset g).toNat = dtOffset g := by
  rw [truncOffset, BitVec.toNat_setWidth, BitVec.toNat_and, dtOffset]
  exact (congrArg (· % 2 ^ 4) (Nat.and_two_pow_sub_one_eq_mod _ 4)).trans (Nat.mod_mod _ _)

theorem dtOffset_lt (g : List Byte) : dtOffset g < 16 := Nat.mod_lt _ (by decide)

/-- R42 (b): four bytes joined, first byte highest, are their big-endian number. -/
theorem append4_toNat (a b c d : Byte) :
    (a ++ b ++ c ++ d : BitVec 32).toNat = a.toNat * 2 ^ 24 + b.toNat * 2 ^ 16 + c.toNat * 2 ^ 8 + d.toNat := by
  simp only [BitVec.toNat_append, shiftLeft_or_eq _ _ 8 (BitVec.isLt _)]
  omega

/-- R123: clearing bit 31 of the four bytes' number is reducing it modulo 2^31. -/
theorem truncP31_toNat (g : List Byte) : (truncP31 g (dtOffset g)).toNat = dtP31 g := by
  rw [truncP31, BitVec.toNat_setWidth, BitVec.toNat_and, append4_toNat]
  exact (congrArg (· % 2 ^ 31) (Nat.and_two_pow_sub_one_eq_mod _ 31)).trans (Nat.mod_mod _ _)

theorem dtP31_lt (g : List Byte) : dtP31 g < 2 ^ 31 := Nat.mod_lt _ (by decide)

/-- R123: the four results of `dt` are the words of the exact numbers, for every digest and digit count. -/
theorem dt_eq (g : List Byte) (dg : Nat) : dt g dg =
    ⟨BitVec.ofNat 4 (dtOffset g), BitVec.ofNat 31 (dtP31 g), BitVec.ofNat 27 (dtP31 g % 10 ^ dg),
      render (dtP31 g % 10 ^ dg) dg⟩ := by
  have hoff : truncOffset g = BitVec.ofNat 4 (dtOffset g) := by
    rw [← truncOffset_toNat, BitVec.ofNat_toNat, BitVec.setWidth_eq]
  have hp31 : truncP31 g (dtOffset g) = BitVec.ofNat 31 (dtP31 g) := by
    rw [← truncP31_toNat, BitVec.ofNat_toNat, BitVec.setWidth_eq]
  rw [dt, truncOffset_toNat, truncP31_toNat, hp31, hoff]

/-- A value of at most 8 digits fits `CODEVAL` (R24). -/
theorem codeval_fits {v dg : Nat} (hdg : dg ≤ 8) : v % 10 ^ dg < 2 ^ 27 :=
  calc v % 10 ^ dg < 10 ^ dg := Nat.mod_lt _ (by positivity)
    _ ≤ 10 ^ 8 := Nat.pow_le_pow_right (by decide) hdg
    _ < 2 ^ 27 := by decide

/-- Settles O29: the words of `dt_eq` hold their numbers, each of which fits. -/
theorem dynamicTruncationIsExact : Obligations.DynamicTruncationIsExact := by
  intro g dg _ _ hdg
  have word {v w : Nat} (h : v < 2 ^ w) : (BitVec.ofNat w v).toNat = v := by
    rw [BitVec.toNat_ofNat, Nat.mod_eq_of_lt h]
  rw [dt_eq]
  exact ⟨word (dtOffset_lt g), word (dtP31_lt g), word (codeval_fits (by omega)), rfl⟩

/-! ### The commands that answer a code -/

/-- R131, bypass form: the latches take the results of `dt`. -/
theorem latch_dt (g : List Byte) (s : State) : latch (dt g s.digits.toNat) s = latched g s := by
  rw [dt_eq]
  rfl

/-- R126: the engine's check of the staged digest is the one Table X writes. -/
theorem digestUsable_iff (s : State) : digestUsable s = true ↔ ¬ badDigest s := by
  simp only [digestUsable, truncOffset_toNat, Bool.and_eq_true, Bool.not_eq_true', bne_iff_ne, decide_eq_true_eq,
    badDigest, not_or, not_lt, Bool.not_eq_true, ne_eq, and_assoc]

/-- R126: truncating the staged digest latches and answers as the statements write it. -/
theorem truncateStaged_eq (s : State) :
    respond (s.digits.setWidth 8) (packString (dt s.dgst s.digits.toNat).code) (latch (dt s.dgst s.digits.toNat) s) =
      hotpTruncEffect s := by
  rw [latch_dt, dt_eq, hotpTruncEffect, BitVec.ofNat_toNat]
  rfl

/-- R126, after the reserved bits. -/
theorem exec_hotpTrunc (s : State) : exec .hotpTrunc s =
    .next (if s.phase = .failed then refuse .wrongPhase s
      else if badDigest s then refuse .badDigest s else hotpTruncEffect s) := by
  rw [exec, execHotpTrunc]
  by_cases hp : s.phase = .failed
  · rw [if_pos hp, hp]
    rfl
  · rw [if_neg hp, (notFailed_iff _).2 hp, requirePhase_true]
    by_cases hbad : badDigest s
    · rw [if_pos hbad, if_neg (mt (digestUsable_iff s).1 (not_not.2 hbad))]
      rfl
    · rw [if_neg hbad, if_pos ((digestUsable_iff s).2 hbad), ← truncateStaged_eq]

/-- Settles O27: the word has no operand (R65), and its command does what R126 says (`exec_hotpTrunc`). -/
theorem hotpTruncTruncatesTheStagedDigest : Obligations.HotpTruncTruncatesTheStagedDigest := by
  refine ⟨fun a d s => step_offer_eq_ite (i := .hotpTrunc) (fun hbad => ?_) (fun hgood => ?_),
    fun s hp hd => by rw [exec_hotpTrunc, if_neg hp, if_neg hd]⟩
  · simpa only [Instr.op, Op.present, operandsLegal, Bool.true_and, Bool.and_eq_false_iff, beq_eq_false_iff_ne]
      using hbad
  · obtain ⟨ha, hd⟩ := not_or.1 hgood
    obtain rfl : a = 0#8 := BitVec.eq_of_toNat_eq (not_not.1 ha)
    obtain rfl : d = 0#64 := BitVec.eq_of_toNat_eq (not_not.1 hd)
    exact ⟨rfl, rfl, exec_hotpTrunc s⟩

/-- R127: the request for a counter is the one for its number. -/
theorem hotpRequest_eq (s : State) (c : Word) : hotpRequest s c = requestAt s c.toNat := by
  rw [requestAt, BitVec.ofNat_toNat, BitVec.setWidth_eq]
  rfl

/-- R127: the digest of a counter is the one of its number. -/
theorem hotpDigest_eq (s : State) (c : Word) : hotpDigest s c = digestAt s c.toNat := by
  rw [hotpDigest, hotpRequest_eq, digestAt]

/-- R128: one keyed computation asks, latches and answers as the statements write it. -/
theorem computeAt_eq (c : Word) (s : State) : computeAt c s = computeEffect c.toNat s := by
  rw [computeAt, hotpTrunc, hotpDigest_eq, hotpRequest_eq, latchKeyed, latch_dt, dt_eq, computeEffect,
    BitVec.ofNat_toNat]
  rfl

/-- R128, after the reserved bits. -/
theorem exec_hotpCompute (c : Word) (s : State) : exec (.hotpCompute c) s =
    .next (if s.phase ≠ .ready then refuse .wrongPhase s else computeEffect c.toNat s) := by
  rw [exec, execHotpCompute, computeAt_eq]
  by_cases hp : s.phase = .ready
  · rw [(inReady_iff _).2 hp, requirePhase_true, if_neg (not_not.2 hp)]
  · rw [Bool.eq_false_of_not_eq_true (mt (inReady_iff _).1 hp), requirePhase_false, if_pos hp]
    rfl

/-- Settles O28: all of `d` is the counter (R65), and the command does what R128 says (`exec_hotpCompute`). -/
theorem hotpComputeGivesTheCodeOfTheCounter : Obligations.HotpComputeGivesTheCodeOfTheCounter := by
  refine ⟨fun a d s => step_offer_eq_ite (i := .hotpCompute d) (fun hbad => ?_) (fun hgood => ?_),
    fun c s hp => by rw [exec_hotpCompute, if_neg (not_not.2 hp)]⟩
  · simpa only [Instr.op, Op.present, operandsLegal, Bool.true_and, beq_eq_false_iff_ne] using hbad
  · obtain rfl : a = 0#8 := BitVec.eq_of_toNat_eq (not_not.1 hgood)
    exact ⟨rfl, rfl, exec_hotpCompute d s⟩

/-! ### The counter's bytes -/

/-- R42 (a), R124: the big-endian number of a counter's bytes is the counter. -/
theorem be_be8 (c : Word) : be (be8 c) = c.toNat := by
  have join (k : Nat) : c.toNat / 2 ^ (k + 8) * 256 + c.toNat / 2 ^ k % 2 ^ 8 = c.toNat / 2 ^ k := by
    rw [pow_add, ← Nat.div_div_eq_div_mul]
    exact Nat.div_add_mod' _ _
  have top := join 56
  rw [Nat.div_eq_of_lt c.isLt] at top
  simp only [be8, be, List.foldl_cons, List.foldl_nil, BitVec.extractLsb'_toNat, Nat.shiftRight_eq_div_pow]
  rw [top, join 48, join 40, join 32, join 24, join 16, join 8, join 0, pow_zero, Nat.div_one]

/-- R124: byte `j` of a counter is its bits `63-8j` to `56-8j`. -/
theorem be8_getD (c : Word) {j : Nat} (hj : j < 8) : (be8 c).getD j 0#8 = c.extractLsb' (56 - 8 * j) 8 := by
  interval_cases j <;> rfl

/-- Settles O30: the bytes and their number by `be8_getD` and `be_be8`, the examples by evaluation. -/
theorem counterIsSerialisedBigEndian : Obligations.CounterIsSerialisedBigEndian :=
  ⟨fun c => ⟨be8_length c, be_be8 c, fun _ => be8_getD c⟩, by decide, by decide, by decide⟩

end Sys2Proof.Machine

/-! Proofs. The TOTP counter and the window comparator: the time commands, the window loop, the candidate trimmed. -/

namespace Sys2Proof.Machine

open Sys2Proof.Spec

/-! ### The time of a command -/

/-- R141: the model resolves a time operand as the statements do. -/
theorem resolveTime_eq_secondsOf (x : TimeArg) (s : State) : resolveTime x s = secondsOf x s := by cases x <;> rfl

/-- R141: a time in seconds fits 64 bits. -/
theorem secondsOf_lt (x : TimeArg) (s : State) : secondsOf x s < 2 ^ 64 := by
  cases x with
  | clock => exact Nat.div_lt_of_lt s.nowMs.isLt
  | ms d => exact Nat.div_lt_of_lt d.isLt
  | sec d => exact d.isLt

/-- R142: a counter fits 64 bits. -/
theorem counter_lt (x : TimeArg) (s : State) : secondsOf x s / s.period.toNat < 2 ^ 64 :=
  Nat.div_lt_of_lt (secondsOf_lt x s)

/-- R141: the fields of a time operand give its time. -/
theorem secondsOfWord_fields (x : TimeArg) (s : State) : secondsOfWord x.fields.1 x.fields.2 s = secondsOf x s := by
  cases x <;> rfl

/-- R65, R67: a time word is malformed when its fields are those of no time operand. -/
theorem timeWordBad_iff (a : Byte) (d : Word) : timeWordBad a d ↔ ¬ ∃ x : TimeArg, x.fields = (a, d) := by
  rw [exists_timeArg_fields_iff, timeWordBad]
  omega

/-- The four time commands presented by their words: a malformed word is refused, and another runs, in READY, at the time
it names. -/
theorem step_offer_time {f : TimeArg → Instr} {s : State} {u : Nat → State} (a : Byte) (d : Word)
    (hf : f = .totpCtr ∨ f = .totpRem ∨ f = .totpGen ∨ f = .totpVerify)
    (hexec : ∀ x, exec (f x) s = .next (if s.phase ≠ .ready then refuse .wrongPhase s else u (secondsOf x s))) :
    step (offer (f .clock).op.code a d s) =
      .next (if timeWordBad a d then refuse .illegalCommand s
        else if s.phase ≠ .ready then refuse .wrongPhase s else u (secondsOfWord a d s)) := by
  by_cases hbad : timeWordBad a d
  · rw [if_pos hbad]
    refine step_offer_of_illegal (Bool.eq_false_of_not_eq_true fun hlegal => (timeWordBad_iff a d).1 hbad ?_)
    rw [wordLegal_code, Bool.and_eq_true, operandsLegal_iff] at hlegal
    obtain ⟨-, i, hi⟩ := hlegal
    obtain rfl | rfl | rfl | rfl := hf <;> exact ((decodeTime_ok_iff _ _ _ _).1 hi).imp fun _ => And.right
  · obtain ⟨x, hx⟩ := not_not.1 (mt (timeWordBad_iff a d).2 hbad)
    obtain rfl : x.fields.1 = a := congrArg Prod.fst hx
    obtain rfl : x.fields.2 = d := congrArg Prod.snd hx
    obtain ⟨hop, hfields, hw⟩ : (f .clock).op = (f x).op ∧ (f x).fields = x.fields ∧
        (f x).wellFormed s.params.hasEnc = true := by
      obtain rfl | rfl | rfl | rfl := hf <;> exact ⟨rfl, rfl, rfl⟩
    rw [if_neg hbad, secondsOfWord_fields, ← hexec, hop, ← hfields, step_offer_fields hw]

/-- R177: the check of a command accepted in READY only. -/
theorem requirePhase_inReady (body s : State) :
    requirePhase s.phase.inReady body s = if s.phase ≠ .ready then refuse .wrongPhase s else body := by
  obtain ⟨hp, he⟩ | ⟨hp, he⟩ := requirePhase_cases s.phase.inReady body s
  · rw [he, if_neg (not_not.2 ((inReady_iff _).1 hp))]
  · rw [he, if_pos fun h => by simp [(inReady_iff _).2 h] at hp]
    rfl

/-! ### The counter, the time remaining and the code -/

/-- R143, after the reserved bits. -/
theorem exec_totpCtr (x : TimeArg) (s : State) : exec (.totpCtr x) s =
    .next (if s.phase ≠ .ready then refuse .wrongPhase s else ctrEffect (secondsOf x s) s) := by
  rw [exec, execTotpCtr, requirePhase_inReady, resolveTime_eq_secondsOf]
  rfl

/-- R145, after the reserved bits. -/
theorem exec_totpRem (x : TimeArg) (s : State) : exec (.totpRem x) s =
    .next (if s.phase ≠ .ready then refuse .wrongPhase s else remEffect (secondsOf x s) s) := by
  rw [exec, execTotpRem, requirePhase_inReady, resolveTime_eq_secondsOf]
  rfl

/-- R146, after the reserved bits: the keyed computation of R128 at the counter of the time. -/
theorem exec_totpGen (x : TimeArg) (s : State) : exec (.totpGen x) s =
    .next (if s.phase ≠ .ready then refuse .wrongPhase s else computeEffect (secondsOf x s / s.period.toNat) s) := by
  rw [exec, execTotpGen, requirePhase_inReady, resolveTime_eq_secondsOf, computeAt_eq, counterAt, BitVec.toNat_ofNat,
    Nat.mod_eq_of_lt (counter_lt x s)]

/-- Settles O34: the two words by `step_offer_time`, the commands by `exec_totpCtr` and `exec_totpRem`. -/
theorem timeQueriesAnswerCounterAndRemainder : Obligations.TimeQueriesAnswerCounterAndRemainder :=
  ⟨fun a d s => step_offer_time (f := .totpCtr) (u := (ctrEffect · s)) a d (by simp) (exec_totpCtr · s),
    fun a d s => step_offer_time (f := .totpRem) (u := (remEffect · s)) a d (by simp) (exec_totpRem · s),
    fun x s hp => by simp [exec_totpCtr, exec_totpRem, hp]⟩

/-- Settles O35: the word by `step_offer_time`, the command by `exec_totpGen`. -/
theorem totpGenGivesTheCodeOfTheTime : Obligations.TotpGenGivesTheCodeOfTheTime :=
  ⟨fun a d s => step_offer_time (f := .totpGen) (u := fun T => computeEffect (T / s.period.toNat) s) a d (by simp)
      (exec_totpGen · s),
    fun x s hp => by simp [exec_totpGen, hp]⟩

/-- R143: in READY the counter answered is the floor of the time over the period. -/
theorem resultOf_totpCtr {s : State} (hp : s.phase = .ready) (x : TimeArg) :
    resultOf (.totpCtr x) s = secondsOf x s / s.period.toNat := by
  simpa [resultOf, exec_totpCtr, hp, ctrEffect, answer] using counter_lt x s

/-- R145: in READY the time remaining is answered exactly. -/
theorem resultOf_totpRem {s : State} (hp : s.phase = .ready) (x : TimeArg) :
    resultOf (.totpRem x) s = timeRemaining s.period (secondsOf x s) := by
  have hfits : s.period.toNat - secondsOf x s % s.period.toNat < 2 ^ 64 :=
    (Nat.sub_le _ _).trans_lt s.period.isLt
  simpa [resultOf, exec_totpRem, hp, remEffect, answer, timeRemaining] using hfits

/-- Settles O40: the counter answered (`resultOf_totpCtr`), with the two divisions composed. -/
theorem millisecondDivisionsCompose : Obligations.MillisecondDivisionsCompose := by
  intro s d hp
  simp only [resultOf_totpCtr hp, secondsOf, Nat.div_div_eq_div_mul, true_and]
  exact Nat.div_le_self _ _

/-! ### Time passing -/

section Period

variable {p : Word} (hp : p ≠ 0#64)

include hp

/-- R17: a period other than 0 is positive as a number. -/
theorem period_toNat_pos : 0 < p.toNat := Nat.pos_of_ne_zero fun h => hp (BitVec.eq_of_toNat_eq h)

/-- R144: the time remaining is from 1 to the period. -/
theorem timeRemaining_bounds (T : Nat) : 1 ≤ timeRemaining p T ∧ timeRemaining p T ≤ p.toNat := by
  have hmod := Nat.mod_lt T (period_toNat_pos hp)
  simp only [timeRemaining]
  omega

/-- R144: the time remaining leads to the end of the period of `T`. -/
theorem add_timeRemaining (T : Nat) : T + timeRemaining p T = (counterAt p T + 1) * p.toNat := by
  have hmod := Nat.mod_lt T (period_toNat_pos hp)
  have hsplit := Nat.div_add_mod' T p.toNat
  rw [timeRemaining, counterAt, Nat.add_mul, Nat.one_mul]
  omega

/-- R142: the counter is the same until the time remaining has passed. -/
theorem counterAt_before_end {T U : Nat} (hle : T ≤ U) (hlt : U < T + timeRemaining p T) :
    counterAt p U = counterAt p T :=
  Nat.div_eq_of_lt_le ((Nat.div_mul_le_self T _).trans hle) (add_timeRemaining hp T ▸ hlt)

/-- R144: when the time remaining has passed the counter is the next one. -/
theorem counterAt_end (T : Nat) : counterAt p (T + timeRemaining p T) = counterAt p T + 1 := by
  rw [add_timeRemaining hp, counterAt, Nat.mul_div_cancel _ (period_toNat_pos hp)]

/-- R160: with more than a second remaining, a second later one less remains. -/
theorem timeRemaining_succ {T : Nat} (h : 1 < timeRemaining p T) :
    timeRemaining p (T + 1) = timeRemaining p T - 1 := by
  have hsame := counterAt_before_end hp (Nat.le_succ T) (by omega)
  have hend := add_timeRemaining hp (T + 1)
  rw [hsame, ← add_timeRemaining hp T] at hend
  omega

/-- R160: after the last second of a period the whole next one remains. -/
theorem timeRemaining_wraps {T : Nat} (h : timeRemaining p T = 1) : timeRemaining p (T + 1) = p.toNat := by
  have hend := add_timeRemaining hp T
  rw [h] at hend
  rw [hend, timeRemaining, Nat.mul_mod_left, Nat.sub_zero]

end Period

/-- Settles O41: the time remaining answered (`resultOf_totpRem`) leads to the end of the period. -/
theorem timeRemainingReachesTheNextCounter : Obligations.TimeRemainingReachesTheNextCounter := by
  intro s d hp hperiod
  rw [resultOf_totpRem hp]
  obtain ⟨hpos, hle⟩ := timeRemaining_bounds hperiod d.toNat
  exact ⟨hpos, hle, fun hmod => by rw [secondsOf, timeRemaining, hmod, Nat.sub_zero],
    fun U => counterAt_before_end hperiod, counterAt_end hperiod _⟩

/-- Settles O42: what the two commands answer at `T` and a second later, then the counter as a quotient and the time
remaining by `timeRemaining_succ` and `timeRemaining_wraps`. -/
theorem counterStepsAtPeriodBoundaries : Obligations.CounterStepsAtPeriodBoundaries := by
  intro s T hp hperiod hT
  have hnow : (BitVec.ofNat 64 T).toNat = T := by rw [BitVec.toNat_ofNat, Nat.mod_eq_of_lt (by omega)]
  have hnext : (BitVec.ofNat 64 (T + 1)).toNat = T + 1 := by rw [BitVec.toNat_ofNat, Nat.mod_eq_of_lt hT]
  simp only [resultOf_totpCtr hp, resultOf_totpRem hp, secondsOf, hnow, hnext]
  exact ⟨fun h => Nat.succ_div_of_dvd (Nat.dvd_of_mod_eq_zero h),
    fun h => Nat.succ_div_of_not_dvd (mt Nat.mod_eq_zero_of_dvd h),
    timeRemaining_succ hperiod, timeRemaining_wraps hperiod⟩

/-! ### The window loop -/

theorem hitAt_iff (s : State) (c : Nat) : hitAt s c = true ↔ codeAt s c = trim s.params.ws s.cand := by
  rw [hitAt, decide_eq_true_eq, eq_comm]

/-- R127: the code the engine gives for a counter is the one of its number. -/
theorem hotpTrunc_code (s : State) (c : Nat) : (hotpTrunc s (BitVec.ofNat 64 c)).code = codeAt s c := by
  rw [hotpTrunc, dt_eq]
  rfl

/-- R151: the model compares the trimmed candidate with the code of a counter. -/
theorem candidateMatches_trim (s : State) : candidateMatches s (trim s.params.ws s.cand) = hitAt s := by
  funext c
  rw [Bool.eq_iff_iff, hitAt_iff, candidateMatches, beq_iff_eq, eq_comm, hotpTrunc_code]

/-- The walk over the window at the counter `now`: whether a counter of the window matches, and how many were tried
(R152). -/
def windowRun (s : State) (now : Nat) : Bool × Nat :=
  windowWalk (hitAt s) (windowLow now s.window.toNat)
    (windowHigh now s.window.toNat + 1 - windowLow now s.window.toNat)

/-- R154 with the counters R153 skips left out: the answer of the walk, and its requests in ascending order. -/
def windowAnswer (s : State) (now : Nat) : State :=
  respondAfter ((List.range' (windowLow now s.window.toNat) (windowRun s now).2).map (requestAt s)) 0#8
    (if (windowRun s now).1 then 1#64 else 0#64) s

/-- R153: indices whose counters are below 0 are skipped. -/
theorem verifyLoop_below (hit : Nat → Bool) (n : Nat) {k : Nat} {now i : Int} (h : now + i = -k) :
    verifyLoop hit now (k + n) i = verifyLoop hit now n (i + k) := by
  induction k generalizing i with
  | zero => simp
  | succ k ih =>
    rw [show k + 1 + n = k + n + 1 by omega, verifyLoop, if_pos (by omega), ih (by omega)]
    congr 1
    omega

/-- R152, R153: from a counter on, the loop is the walk over the counters left that fit 64 bits. -/
theorem verifyLoop_eq_windowWalk (hit : Nat → Bool) {n m c : Nat} {now i : Int} (h : now + i = c)
    (hm : m = min n (2 ^ 64 - c)) :
    verifyLoop hit now n i = ((windowWalk hit c m).1, List.range' c (windowWalk hit c m).2) := by
  induction n generalizing m c i with
  | zero =>
    obtain rfl : m = 0 := by omega
    rfl
  | succ n ih =>
    have hrest := ih (m := m - 1) (c := c + 1) (i := i + 1) (by omega) (by omega)
    rw [verifyLoop, h, Int.toNat_natCast, hrest]
    by_cases hout : 2 ^ 64 ≤ c
    · obtain rfl : m = 0 := by omega
      rw [if_pos (by omega)]
      rfl
    · obtain ⟨m, rfl⟩ := Nat.exists_eq_succ_of_ne_zero (show m ≠ 0 by omega)
      rw [if_neg (by omega), windowWalk]
      split <;> rfl

/-- R154, R155: the loop over the indices `-WINDOW` to `WINDOW` is the walk over the window. -/
theorem verifyLoop_window (s : State) (now : Nat) :
    verifyLoop (hitAt s) now (2 * s.window.toNat + 1) (-s.window.toNat) =
      ((windowRun s now).1, List.range' (windowLow now s.window.toNat) (windowRun s now).2) := by
  obtain hle | hlt := le_or_gt s.window.toNat now
  · exact verifyLoop_eq_windowWalk _ (by simp only [windowLow]; omega) (by simp only [windowLow, windowHigh]; omega)
  · rw [show 2 * s.window.toNat + 1 = (s.window.toNat - now) + (s.window.toNat + now + 1) by omega,
      verifyLoop_below _ _ (by omega)]
    exact verifyLoop_eq_windowWalk _ (by simp only [windowLow]; omega) (by simp only [windowLow, windowHigh]; omega)

/-- R154: the walk over the window answers what the loop of the pseudocode answers, and asks what it asks. -/
theorem windowAnswer_eq_verifyEffect (T : Nat) (s : State) :
    windowAnswer s (T / s.period.toNat) = verifyEffect T s := by
  rw [verifyEffect, verifyLoop_window]
  rfl

/-- R154, after the reserved bits. -/
theorem exec_totpVerify (x : TimeArg) (s : State) : exec (.totpVerify x) s =
    .next (if s.phase ≠ .ready then refuse .wrongPhase s
      else if s.candovf = true then refuse .bufferOverflow s else verifyEffect (secondsOf x s) s) := by
  rw [exec, execTotpVerify, requirePhase_inReady, candidateMatches_trim, resolveTime_eq_secondsOf,
    ← windowAnswer_eq_verifyEffect, windowAnswer, List.range'_eq_map_range, List.map_map]
  rfl

/-- `TOTP.VERIFY` in READY with its candidate whole answers from the walk over the window. -/
theorem exec_totpVerify_walk {s : State} (x : TimeArg) (hp : s.phase = .ready) (hc : s.candovf = false) :
    exec (.totpVerify x) s = .next (windowAnswer s (secondsOf x s / s.period.toNat)) := by
  simp [exec_totpVerify, hp, hc, windowAnswer_eq_verifyEffect]

/-- Settles O36: the word by `step_offer_time`, the command by `exec_totpVerify`. -/
theorem totpVerifyIsTheWindowLoop : Obligations.TotpVerifyIsTheWindowLoop :=
  ⟨fun a d s => step_offer_time (f := .totpVerify)
      (u := fun T => if s.candovf = true then refuse .bufferOverflow s else verifyEffect T s) a d (by simp)
      (exec_totpVerify · s),
    fun x s hp hc => by simp [exec_totpVerify, hp, hc]⟩

/-- R155: the window at a 64-bit counter has at least 1 and at most `2w+1` counters. -/
theorem windowSize_bounds {now : Nat} (w : Nat) (hnow : now < 2 ^ 64) :
    0 < windowHigh now w + 1 - windowLow now w ∧ windowHigh now w + 1 - windowLow now w ≤ 2 * w + 1 := by
  simp only [windowLow, windowHigh]
  omega

/-- Settles O38: the walk tries all its counters when none matches (`windowWalk_none`), and stops at the first match
(`windowWalk_first`). -/
theorem verifyRequestsAscendToTheFirstMatch : Obligations.VerifyRequestsAscendToTheFirstMatch := by
  intro x s t hp hc hexec now low high hit
  rw [exec_totpVerify_walk x hp hc] at hexec
  obtain rfl := Host.Outcome.next.inj hexec
  obtain ⟨hpos, hsize⟩ : 0 < high + 1 - low ∧ high + 1 - low ≤ 2 * s.window.toNat + 1 :=
    windowSize_bounds s.window.toNat (counter_lt x s)
  simp only [windowAnswer, respondAfter_reqs, List.length_map, List.length_range']
  refine ⟨windowWalk_count_pos _ _ _ hpos, (windowWalk_count_le _ _ _).trans hsize, fun hnone => ?_,
    fun c hlc hch hmatch hfirst => ?_⟩
  · have hwalk : windowRun s now = (false, high + 1 - low) := windowWalk_none _ _ _ fun j (hj : j < high + 1 - low) =>
      Bool.eq_false_of_not_eq_true (mt (hitAt_iff s _).1 (hnone (low + j) (by omega) (by omega)))
    rw [hwalk, show high + 1 - low = high - low + 1 by omega]
    rfl
  · have hwalk : windowRun s now = (true, c - low + 1) := windowWalk_first _ _ _ _
      (show c - low < high + 1 - low by omega)
      ((hitAt_iff s _).2 (show hit (low + (c - low)) by rwa [Nat.add_sub_cancel' hlc])) fun j hj =>
        Bool.eq_false_of_not_eq_true (mt (hitAt_iff s _).1 (hfirst (low + j) (by omega) (by omega)))
    rw [hwalk]
    rfl

/-! ### The candidate -/

/-- R73, R127: the code of a counter is `DIGITS` ASCII digits. -/
theorem codeAt_digits (s : State) (c : Nat) :
    (codeAt s c).length = s.digits.toNat ∧ ∀ b ∈ codeAt s c, 0x30 ≤ b.toNat ∧ b.toNat ≤ 0x39 :=
  ⟨render_length _ _, render_digits _ _⟩

/-- Settles O44: no counter's code is malformed (`codeAt_digits`), so the walk matches none. -/
theorem malformedCandidateNeverMatches : Obligations.MalformedCandidateNeverMatches := by
  intro x s hp hc hbad
  have hmiss (c : Nat) : hitAt s c = false := by
    refine Bool.eq_false_of_not_eq_true fun hhit => ?_
    obtain ⟨hlen, hdigits⟩ := codeAt_digits s c
    rw [(hitAt_iff s c).1 hhit] at hlen hdigits
    obtain hne | ⟨b, hb, hout⟩ := hbad
    · exact hne hlen
    · have := hdigits b hb
      omega
  refine ⟨_, exec_totpVerify_walk x hp hc, ?_⟩
  rw [windowAnswer, windowRun, windowWalk_none _ _ _ fun j _ => hmiss _]
  rfl

/-- What follows a longest run of `WS` bytes does not begin with one. -/
theorem head_of_dropWhile_ws {ws l : List Byte} {c : Byte} (h : (l.dropWhile (· ∈ ws)).head? = some c) : c ∉ ws := by
  simpa [h] using List.head?_dropWhile_not (· ∈ ws) l

/-- Settles O45: the two runs dropped are the longest ones, and what the second leaves begins as what it was dropped
from. -/
theorem trimRemovesWhitespaceAtBothEnds : Obligations.TrimRemovesWhitespaceAtBothEnds := by
  intro ws bs
  have hsplit : trim ws bs ++ (bs.dropWhile (· ∈ ws)).rtakeWhile (· ∈ ws) = bs.dropWhile (· ∈ ws) :=
    List.rdropWhile_append_rtakeWhile
  refine ⟨bs.takeWhile (· ∈ ws), (bs.dropWhile (· ∈ ws)).rtakeWhile (· ∈ ws), ?_,
    fun c hc => by simpa using List.mem_takeWhile_imp hc, fun c hc => by simpa using List.mem_rtakeWhile_imp hc,
    fun c hc => head_of_dropWhile_ws (l := bs) ?_, fun c hc => ?_⟩
  · rw [List.append_assoc, hsplit, List.takeWhile_append_dropWhile]
  · rw [← hsplit, List.head?_append, hc, Option.some_or]
  · rw [trim, List.getLast?_reverse] at hc
    exact head_of_dropWhile_ws hc

end Sys2Proof.Machine

/-! Proofs. Construction and configuration: the phase check before all other checks of a command (Table A), then `INIT`
and the three `CFG` commands as their rules write them. -/

namespace Sys2Proof.Machine

open Sys2Proof.Spec

/-! ### The phase check -/

/-- A phase check that fails refuses the command whatever its body would do (R177, R193). -/
theorem requirePhase_eq_refuse {b : Bool} (hb : b = false) (body s : State) :
    requirePhase b body s = refuse .wrongPhase s := by
  subst hb
  rfl

/-- Where Table A has WP the command is refused with WrongPhase: its phase check is its row, and comes first. -/
theorem exec_eq_refuse_wrongPhase {i : Instr} {s : State} (h : tableA i.op s.phase = false) :
    exec i s = .next (refuse .wrongPhase s) := by
  cases i with
  | init | rd | encClr | encPush | encEnd => cases h
  | cfgDigits | cfgPeriod | cfgAlg | b32Push | commit | hotpCompute | totpCtr | totpRem | totpGen | totpVerify =>
    exact congrArg Host.Outcome.next (requirePhase_eq_refuse h _ _)
  | totpWin | candClr | candPush | dgstClr | dgstPush | hotpTrunc =>
    exact congrArg Host.Outcome.next (requirePhase_eq_refuse ((notFailed_eq _).trans h) _ _)

/-- Where Table A has ok the command is not refused with WrongPhase (Table X). -/
theorem exec_ne_wrongPhase {i : Instr} {s t : State} (hp : tableA i.op s.phase = true) (h : exec i s = .next t) :
    t.lastStatus ≠ some .wrongPhase := by
  intro hst
  obtain ⟨e, he, -⟩ | ⟨e, s', he, hr, -⟩ | ⟨he, -⟩ := exec_ends h hst
  · cases e <;> cases he
  · cases hr with
    | phase _ hwp => simp [hp] at hwp
    | absent | candidateCut | digestUnusable | candidateFull | digestFull => cases he
  · cases he

/-- A legal word of a row of Table O performs a command of that row. -/
theorem exists_step_offer_of_tableO {op a : Byte} {d : Word} {s : State} {o : Op} (ho : tableO op = some o)
    (h : wordLegal s.params.hasEnc op a d = true) : ∃ i : Instr, i.op = o ∧ step (offer op a d s) = exec i s := by
  obtain ⟨i, rfl, -, -, hstep⟩ := exists_step_offer_of_legal h
  rw [tableO_eq_ofCode?, Op.ofCode?_code] at ho
  exact ⟨i, Option.some.inj ho, hstep⟩

/-- Settles O16: the two columns of Table A (`exec_eq_refuse_wrongPhase`, `exec_ne_wrongPhase`) for commands, then for
their words, which perform a command of their row when they are legal. -/
theorem phasesAcceptTableA : Obligations.PhasesAcceptTableA := by
  have accepted {i : Instr} {s : State} (hp : tableA i.op s.phase = true) :
      ∃ t, exec i s = .next t ∧ t.lastStatus ≠ some .wrongPhase :=
    (exec_next i s).imp fun _ ht => ⟨ht, exec_ne_wrongPhase hp ht⟩
  refine ⟨fun i s _ => ⟨exec_eq_refuse_wrongPhase, accepted⟩,
    fun op a d s => ⟨step_offer_of_illegal, fun o ho hlegal hwp => ?_, fun o ho hlegal hok => ?_⟩⟩
  · obtain ⟨i, rfl, hstep⟩ := exists_step_offer_of_tableO ho hlegal
    exact hstep.trans (exec_eq_refuse_wrongPhase hwp)
  · obtain ⟨i, rfl, hstep⟩ := exists_step_offer_of_tableO ho hlegal
    exact hstep ▸ accepted hok

/-! ### `INIT` -/

/-- R171: the model begins a construction with Table Z's values. -/
theorem beginConstruction_eq_afterInit (s : State) : beginConstruction s = afterInit s := by
  simp only [beginConstruction, afterInit, zeroCode_eq]

/-- R171, after the reserved bits. -/
theorem exec_init (s : State) : exec .init s = .next (answer 0#8 0#64 (afterInit s)) := by
  rw [← beginConstruction_eq_afterInit]
  rfl

/-- The word of a command with no operand outside the encoder: `a` and `d` are reserved (R65). -/
theorem step_offer_no_operand {i : Instr} {s u : State} (a : Byte) (d : Word)
    (hi : i = .init ∨ i = .commit ∨ i = .dgstClr ∨ i = .hotpTrunc ∨ i = .candClr) (hexec : exec i s = .next u) :
    step (offer i.op.code a d s) = .next (if a.toNat ≠ 0 ∨ d.toNat ≠ 0 then refuse .illegalCommand s else u) := by
  refine step_offer_eq_ite (fun hbad => ?_) (fun hgood => ?_)
  · obtain rfl | rfl | rfl | rfl | rfl := hi <;>
      simpa only [Instr.op, Op.present, operandsLegal, Bool.true_and, Bool.and_eq_false_iff, beq_eq_false_iff_ne]
        using hbad
  · obtain ⟨ha, hd⟩ := not_or.1 hgood
    obtain rfl : a = 0#8 := BitVec.eq_of_toNat_eq (not_not.1 ha)
    obtain rfl : d = 0#64 := BitVec.eq_of_toNat_eq (not_not.1 hd)
    obtain rfl | rfl | rfl | rfl | rfl := hi <;> exact ⟨rfl, rfl, hexec⟩

/-- Settles O12: the word by `step_offer_no_operand`, the command by `exec_init`. -/
theorem initBeginsANewConstruction : Obligations.InitBeginsANewConstruction :=
  ⟨fun a d s => step_offer_no_operand (i := .init) a d (.inl rfl) (exec_init s), exec_init⟩

/-! ### The `CFG` commands -/

/-- R177: the check of a command accepted in BUILD only. -/
theorem requirePhase_inBuild (body s : State) :
    requirePhase s.phase.inBuild body s = if s.phase ≠ .build then refuse .wrongPhase s else body := by
  by_cases hp : s.phase = .build
  · rw [(inBuild_iff _).2 hp, requirePhase_true, if_neg (not_not.2 hp)]
  · rw [requirePhase_eq_refuse (Bool.eq_false_of_not_eq_true (mt (inBuild_iff _).1 hp)), if_pos hp]

/-- R173, after the reserved bits. -/
theorem exec_cfgDigits (v : Word) (s : State) : exec (.cfgDigits v) s =
    .next (if s.phase ≠ .build then refuse .wrongPhase s else cfgDigitsEffect v s) := by
  have hlegal : (v = 6#64 ∨ v = 7#64 ∨ v = 8#64) = (v.toNat = 6 ∨ v.toNat = 7 ∨ v.toNat = 8) := by
    simp [← BitVec.toNat_inj]
  rw [exec, execCfgDigits, requirePhase_inBuild, cfgDigitsEffect, BitVec.ofNat_toNat]
  simp only [hlegal]
  rfl

/-- R174, after the reserved bits. -/
theorem exec_cfgPeriod (v : Word) (s : State) : exec (.cfgPeriod v) s =
    .next (if s.phase ≠ .build then refuse .wrongPhase s else cfgPeriodEffect v s) := by
  have hzero : (v = 0#64) = (v.toNat = 0) := by simp [← BitVec.toNat_inj]
  rw [exec, execCfgPeriod, requirePhase_inBuild, cfgPeriodEffect]
  simp only [hzero]
  rfl

/-- R71: the codes 0, 1, 2 name an algorithm, and no other number does. -/
theorem algOfCode?_eq (v : Word) : algOfCode? v =
    if 2 < v.toNat then none
    else some (if v.toNat = 0 then .sha1 else if v.toNat = 1 then .sha256 else .sha512) := by
  by_cases hv : 2 < v.toNat
  · have hne {n : Nat} (hn : n ≤ 2) : v ≠ BitVec.ofNat 64 n := by
      rintro rfl
      rw [BitVec.toNat_ofNat] at hv
      omega
    rw [if_pos hv, algOfCode?, if_neg (hne (n := 0) (by decide)), if_neg (hne (n := 1) (by decide)),
      if_neg (hne le_rfl)]
  · obtain rfl | rfl | rfl : v = 0#64 ∨ v = 1#64 ∨ v = 2#64 := by bv_omega
    all_goals rfl

/-- R175, after the reserved bits. -/
theorem exec_cfgAlg (v : Word) (s : State) : exec (.cfgAlg v) s =
    .next (if s.phase ≠ .build then refuse .wrongPhase s else cfgAlgEffect v s) := by
  rw [exec, execCfgAlg, requirePhase_inBuild, cfgAlgEffect, algOfCode?_eq]
  by_cases hv : 2 < v.toNat
  · rw [if_pos hv, if_pos hv]
    rfl
  · rw [if_neg hv, if_neg hv]
    rfl

/-- The word of a command whose operand is all of `d`: `a` is reserved (R65). -/
theorem step_offer_whole_operand {f : Word → Instr} {s u : State} (a : Byte) (d : Word)
    (hf : f = .cfgDigits ∨ f = .cfgPeriod ∨ f = .cfgAlg ∨ f = .hotpCompute ∨ f = .totpWin)
    (hexec : exec (f d) s = .next u) :
    step (offer (f d).op.code a d s) = .next (if a.toNat ≠ 0 then refuse .illegalCommand s else u) := by
  refine step_offer_eq_ite (fun hbad => ?_) (fun hgood => ?_)
  · obtain rfl | rfl | rfl | rfl | rfl := hf <;>
      simpa only [Instr.op, Op.present, operandsLegal, Bool.true_and, beq_eq_false_iff_ne] using hbad
  · obtain rfl : a = 0#8 := BitVec.eq_of_toNat_eq (not_not.1 hgood)
    obtain rfl | rfl | rfl | rfl | rfl := hf <;> exact ⟨rfl, rfl, hexec⟩

/-- Settles O15: the three words by `step_offer_whole_operand`, the commands by `exec_cfgDigits`, `exec_cfgPeriod` and
`exec_cfgAlg`. -/
theorem configurationIsCheckedAndWritten : Obligations.ConfigurationIsCheckedAndWritten :=
  ⟨fun a d s => step_offer_whole_operand (f := .cfgDigits) a d (by simp) (exec_cfgDigits d s),
    fun a d s => step_offer_whole_operand (f := .cfgPeriod) a d (by simp) (exec_cfgPeriod d s),
    fun a d s => step_offer_whole_operand (f := .cfgAlg) a d (by simp) (exec_cfgAlg d s),
    fun v s hp => by simp [exec_cfgDigits, exec_cfgPeriod, exec_cfgAlg, hp]⟩

end Sys2Proof.Machine

/-! Proofs. Errors: the status of a word as the first failing check, what an error leaves, and the run-time commands. -/

namespace Sys2Proof.Machine

open Sys2Proof.Spec

/-! ### The command's own checks -/

/-- Table X: a fatal error is the verdict of the failing command's own check. -/
theorem Failing.ownVerdict_eq {s : State} {i : Instr} {e : FatalError} (h : Failing s i e) :
    ownVerdict i.op i.fields.2 s = e.status := by
  cases h with
  | digits v hv => exact if_neg (by simpa [Instr.fields, ← BitVec.toNat_inj] using hv)
  | period => rfl
  | alg v hv =>
    have hlarge : 2 < v.toNat := by simpa [algOfCode?_eq] using hv
    exact if_pos hlarge
  | character c hc => simp [ownVerdict, Instr.op, Instr.fields, hc, FatalError.status]
  | keyFull c v hc hn hfull => simp [ownVerdict, Instr.op, Instr.fields, hc, hn, hfull, FatalError.status]

/-- Table X: past the decoder and the phase check, a refusal is the verdict of the command's own check. -/
theorem Refused.ownVerdict_eq {s s' : State} {i : Instr} {e : RefusalCause} (h : Refused s i e s')
    (hi : i.wellFormed s.params.hasEnc = true) (hp : tableA i.op s.phase = true) :
    ownVerdict i.op i.fields.2 s = e.status := by
  cases h with
  | absent _ habsent => simp [habsent] at hi
  | phase _ hout => simp [hout] at hp
  | candidateCut _ hc => exact if_pos hc
  | digestUnusable hd => exact if_pos (not_not.1 fun h => by simp [(digestUsable_iff s).2 h] at hd)
  | candidateFull _ hfull => exact if_pos hfull
  | digestFull _ hfull => exact if_pos hfull

/-- Table X: a command that answers OK passes its own checks. -/
theorem Accepted.ownVerdict_eq {s t : State} {i : Instr} (h : Accepted s i t) :
    ownVerdict i.op i.fields.2 s = .ok := by
  cases h with
  | cfgDigits v hv => exact if_pos (by simpa [Instr.fields, ← BitVec.toNat_inj] using hv)
  | cfgPeriod v hv => exact if_neg (by simpa [Instr.fields, ← BitVec.toNat_inj] using hv)
  | cfgAlg v a hv =>
    have hsmall : ¬ 2 < v.toNat := fun hlarge => by simp [algOfCode?_eq, hlarge] at hv
    exact if_neg hsmall
  | b32Skip c hc => simp [ownVerdict, Instr.op, Instr.fields, hc]
  | b32Collect c v hc hn => simp [ownVerdict, Instr.op, Instr.fields, hc, not_le.2 hn]
  | b32Emit c v hc hn hroom => simp [ownVerdict, Instr.op, Instr.fields, hc, hroom]
  | dgstPush _ hroom => exact if_neg hroom
  | hotpTrunc hd => exact if_neg ((digestUsable_iff s).1 hd)
  | totpVerify _ hc => exact if_neg (by simp [hc])
  | candPush _ hroom => exact if_neg hroom
  | _ => rfl

/-- R194: a command of the block answers WrongPhase outside its phases, and else what its own checks decide. -/
theorem exec_lastStatus {i : Instr} {s t : State} (hi : i.wellFormed s.params.hasEnc = true)
    (h : exec i s = .next t) : t.lastStatus =
      some (if tableA i.op s.phase = false then .wrongPhase else ownVerdict i.op i.fields.2 s) := by
  split
  · next hp =>
    obtain rfl := Host.Outcome.next.inj ((exec_eq_refuse_wrongPhase hp).symm.trans h)
    rfl
  · next hp =>
    cases exec_effect h with
    | fatal _ hf => exact congrArg some hf.ownVerdict_eq.symm
    | refused hr => exact congrArg some (hr.ownVerdict_eq hi (Bool.eq_true_of_not_eq_false hp)).symm
    | accepted _ ha => rw [ha.ownVerdict_eq, ha.lastStatus]

/-! ### The verdict of a word -/

/-- R194 (1) to (3): an illegal word's verdict is IllegalCommand. -/
theorem verdict_of_illegal {op a : Byte} {d : Word} {s : State} (h : wordLegal s.params.hasEnc op a d = false) :
    verdict op a d s = .illegalCommand := by
  unfold verdict
  split
  · rfl
  · exact if_pos h

/-- R194: the verdict of a word whose opcode is a row's code. -/
theorem verdict_code (o : Op) (a : Byte) (d : Word) (s : State) : verdict o.code a d s =
    if wordLegal s.params.hasEnc o.code a d = false then .illegalCommand
    else if tableA o s.phase = false then .wrongPhase
    else ownVerdict o d s := by
  simp only [verdict, tableO_eq_ofCode?, Op.ofCode?_code]

/-- Settles O46: an illegal word by `step_offer_of_illegal`, a legal one by the command it performs. -/
theorem statusIsTheFirstFailingCheck : Obligations.StatusIsTheFirstFailingCheck := by
  intro op a d s
  cases hlegal : wordLegal s.params.hasEnc op a d with
  | false => exact ⟨_, step_offer_of_illegal hlegal, congrArg some (verdict_of_illegal hlegal).symm⟩
  | true =>
    obtain ⟨i, rfl, hfields, hi, hstep⟩ := exists_step_offer_of_legal hlegal
    obtain ⟨t, ht⟩ := exec_next i s
    refine ⟨t, hstep.trans ht, ?_⟩
    rw [exec_lastStatus hi ht, verdict_code, hlegal, hfields]
    rfl

/-! ### What an error leaves -/

/-- The state with the flag of a buffer found full raised: by `BufferOverflow` and the opcode of the buffer's push
(R14, R193). -/
def withFullFlag (st : Status) (op : Byte) (s : State) : State :=
  { s with
    candovf := s.candovf || (st == .bufferOverflow && op == 0x46#8)
    dgstovf := s.dgstovf || (st == .bufferOverflow && op == 0x31#8) }

theorem withFullFlag_of_ne {st : Status} (h : st ≠ .bufferOverflow) (op : Byte) (s : State) :
    withFullFlag st op s = s := by
  simp only [withFullFlag, beq_false_of_ne h, Bool.false_and, Bool.or_false]

/-- R193: before its record a refusal raises the flag of the buffer its command found full, and changes nothing else. -/
theorem Refused.eq_withFullFlag {s s' : State} {i : Instr} {e : RefusalCause} (h : Refused s i e s') :
    s' = withFullFlag e.status i.op.code s := by
  cases h with
  | absent | phase | digestUnusable => exact .symm (withFullFlag_of_ne (by decide) _ s)
  | candidateCut | candidateFull | digestFull => simp [withFullFlag, RefusalCause.status, Instr.op, Op.code]

/-- Settles O47: an illegal word by `step_offer_of_illegal`, a legal one by how its command ends. -/
theorem errorsArePrecise : Obligations.ErrorsArePrecise := by
  intro op a d s t st hstep hst
  cases hlegal : wordLegal s.params.hasEnc op a d with
  | false =>
    obtain rfl := Host.Outcome.next.inj ((step_offer_of_illegal hlegal).symm.trans hstep)
    obtain rfl := Option.some.inj hst
    exact ⟨nofun, fun _ => congrArg _ (.symm (withFullFlag_of_ne (by decide) op s))⟩
  | true =>
    obtain ⟨i, rfl, hfields, -, hexec⟩ := exists_step_offer_of_legal hlegal
    obtain ⟨e, rfl, hp, -, rfl⟩ | ⟨e, s', rfl, hr, rfl⟩ | ⟨rfl, -⟩ := exec_ends (hexec.symm.trans hstep) hst
    · exact ⟨fun _ => ⟨hp, by rw [hfields]; rfl⟩, fun hrefusal => by simp at hrefusal⟩
    · exact ⟨fun hfatal => by simp at hfatal, fun _ => congrArg _ hr.eq_withFullFlag⟩
    · exact ⟨nofun, nofun⟩

/-! ### The run-time commands -/

section RunTime

variable {o : Op} (ho : o = .totpCtr ∨ o = .totpRem ∨ o = .totpGen ∨ o = .hotpCompute ∨ o = .totpVerify)
include ho

/-- R205: READY accepts the run-time commands. -/
theorem tableA_ready_of_runTime : tableA o .ready = true := by
  obtain rfl | rfl | rfl | rfl | rfl := ho <;> rfl

/-- R205: of the run-time commands' own checks there is one, for a candidate that overflowed. -/
theorem ownVerdict_of_runTime (d : Word) (s : State) : ownVerdict o d s =
    if o = .totpVerify ∧ s.candovf = true then .bufferOverflow else .ok := by
  obtain rfl | rfl | rfl | rfl | rfl := ho <;> simp [ownVerdict]

/-- Every block has the run-time commands (R66). -/
theorem wellFormed_of_runTime {i : Instr} (hi : i.op = o) (hasEnc : Bool) : i.wellFormed hasEnc = true := by
  refine Bool.eq_true_of_not_eq_false fun habsent => ?_
  obtain rfl | rfl | rfl | rfl | rfl := ho <;> simpa [hi] using op_of_absent habsent

/-- The run-time commands keep READY (R13, R205). -/
theorem phase_of_runTime {i : Instr} {s t : State} (hi : i.op = o) (hp : s.phase = .ready) (h : exec i s = .next t) :
    t.phase = .ready := by
  cases exec_effect h with
  | fatal hbuild => simp [hp] at hbuild
  | refused hr => rw [raiseRefusal_phase, hr.frame, hp]
  | accepted _ ha => obtain rfl | rfl | rfl | rfl | rfl := ho <;> simp [ha.phase, hi, hp]

end RunTime

/-- Settles O54: the statuses by `ownVerdict_of_runTime`, of a command through `exec_lastStatus` and of a word through
its verdict (R194). -/
theorem runTimeCommandsAreTotal : Obligations.RunTimeCommandsAreTotal := by
  refine ⟨fun i s hp ho => ?_, fun o a d s hp ho => ?_⟩
  · obtain ⟨t, ht⟩ := exec_next i s
    refine ⟨t, ht, phase_of_runTime ho rfl hp ht, ?_⟩
    rw [exec_lastStatus (wellFormed_of_runTime ho rfl _) ht, hp, tableA_ready_of_runTime ho,
      ownVerdict_of_runTime ho]
    rfl
  · obtain ⟨t, ht, hst⟩ := statusIsTheFirstFailingCheck o.code a d s
    refine ⟨t, _, ht, hst, ?_⟩
    rw [verdict_code, hp, tableA_ready_of_runTime ho, ownVerdict_of_runTime ho, if_neg (c := true = false) nofun]
    split_ifs with hlegal hcut
    · exact .inr (.inl ⟨rfl, hlegal⟩)
    · exact .inr (.inr ⟨rfl, hcut⟩)
    · exact .inl rfl

end Sys2Proof.Machine

/-! Proofs. The step: command words and their encoding read both ways, the word a step runs, the reset input, the answer
every command gives and the inputs it leaves alone. -/

namespace Sys2Proof

/-- The decoder and the encoder are inverse: a word decodes to the command of the block it encodes, and to no other
(R60, R63 to R67). -/
theorem decodeWord_ok_iff (hasEnc : Bool) (w : PortWord) (i : Instr) :
    decodeWord hasEnc w = .ok i ↔ encode i = w ∧ i.wellFormed hasEnc = true := by
  constructor
  · intro h
    obtain ⟨hop, hfields, hi⟩ := (decodeFields_ok_iff _ _ _ _ _).1 h
    exact ⟨by rw [encode, hop, hfields]; exact cmdWord_fields w, hi⟩
  · rintro ⟨rfl, hi⟩
    rw [encode, decodeWord_cmdWord]
    exact (decodeFields_ok_iff _ _ _ _ _).2 ⟨rfl, rfl, hi⟩

end Sys2Proof

namespace Sys2Proof.Machine

open Sys2Proof.Spec

/-! ### Words and commands -/

/-- Settles O6: `decodeWord_ok_iff`, from the command to the word. -/
theorem decodeOfEncodeIsTheCommand : Obligations.DecodeOfEncodeIsTheCommand :=
  fun hasEnc i hi => (decodeWord_ok_iff hasEnc _ i).2 ⟨rfl, hi⟩

/-- Settles O7: `decodeWord_ok_iff`, from the word to the command. -/
theorem decodedWordIsTheEncodingOfItsCommand : Obligations.DecodedWordIsTheEncodingOfItsCommand :=
  fun hasEnc w i => (decodeWord_ok_iff hasEnc w i).1

/-- Settles O8: each word is the encoding of its command (`decodeWord_ok_iff`); the refusals by evaluation. -/
theorem wordsOfTheSpecDecode : Obligations.WordsOfTheSpecDecode := by
  have reads {w : PortWord} {i : Instr} (hw : encode i = w) (hi : i.wellFormed true = true) : decodeWord true w = .ok i :=
    (decodeWord_ok_iff _ _ _).2 ⟨hw, hi⟩
  exact ⟨reads (by decide) rfl, reads (by decide) rfl, reads (by decide) rfl, reads (by decide) rfl,
    reads (by decide) rfl, reads (by decide) rfl, reads (by decide) rfl, reads (by decide) rfl, reads (by decide) rfl,
    by decide, reads (by decide) rfl, by decide⟩

/-! ### One step -/

/-- A presented word that decodes runs its command at the clock reading presented with it (R6, R30). -/
theorem step_of_decode_ok {s : State} {w : PortWord} {now : Word} {rest : List HostEvent} {i : Instr}
    (hhost : s.host = .command w now :: rest) (hdec : decodeWord s.params.hasEnc w = .ok i) :
    step s = exec i { s with host := rest, nowMs := now } := by
  simp only [step, hhost, runWord, hdec]

/-- A presented word that does not decode is refused (R66, R193). -/
theorem step_of_decode_error {s : State} {w : PortWord} {now : Word} {rest : List HostEvent} {e : DecodeError}
    (hhost : s.host = .command w now :: rest) (hdec : decodeWord s.params.hasEnc w = .error e) :
    step s = .next (raiseRefusal .illegalCommand { s with host := rest, nowMs := now }) := by
  simp only [step, hhost, runWord, hdec]

/-- The 80 bits of a table word are the word. -/
theorem withFetchWord_host (s : State) (w : PortWord) :
    (s.withFetchWord 80 w.toNat).host = .command w s.nowMs :: s.host := by
  rw [State.withFetchWord, Nat.mod_eq_of_lt w.isLt, BitVec.ofNat_toNat, BitVec.setWidth_eq]

/-- Settles O4: the step on each kind of event, then a word placed by `withFetchWord` (`decodeWord_ok_iff`). -/
theorem stepRunsTheDecodedCommand : Obligations.StepRunsTheDecodedCommand :=
  ⟨fun _ _ _ _ _ => step_of_decode_ok, fun _ _ _ _ _ => step_of_decode_error,
    fun s hhost => by simp only [step, hhost],
    fun s i hi => step_of_decode_ok (withFetchWord_host s (encode i)) (decodeOfEncodeIsTheCommand _ i hi)⟩

/-! ### The reset input -/

/-- R220: a step at which reset is asserted. -/
theorem step_reset {s : State} {rest : List HostEvent} (hhost : s.host = .reset :: rest) :
    step s = .next (assertReset { s with host := rest }) := by
  simp only [step, hhost]

/-- R221: reset begins a construction, with `PERR` and the encoder cleared besides, and answers nothing. -/
theorem assertReset_eq_beginConstruction (s : State) : assertReset s =
    beginConstruction { s with perr := false, eacc := 0#12, enb := 0#4, resp := none, reqs := [] } := rfl

/-- Settles O2: by `assertReset_eq_beginConstruction`. -/
theorem resetInputIsInitAndClearsPerrAndEncoder : Obligations.ResetInputIsInitAndClearsPerrAndEncoder :=
  fun s rest hhost => ⟨_, respond 0#8 0#64 (beginConstruction { s with host := rest }),
    (step_reset hhost).trans (congrArg _ (assertReset_eq_beginConstruction _)), rfl, rfl, rfl, rfl, rfl, rfl, rfl⟩

/-- Settles O3: `assertReset` keeps the model's inputs and takes every other field from the state after reset. -/
theorem resetInputLeavesTheResetState : Obligations.ResetInputLeavesTheResetState :=
  fun _ _ hhost => step_reset hhost

/-! ### Every command is answered, and the inputs are left alone -/

/-- A presented command word is refused with IllegalCommand or performs a command (R65, R66). -/
theorem step_offer_cases (op a : Byte) (d : Word) (s : State) :
    step (offer op a d s) = .next (raiseRefusal .illegalCommand s) ∨ ∃ i, step (offer op a d s) = exec i s := by
  cases hlegal : wordLegal s.params.hasEnc op a d with
  | false => exact .inl (step_offer_of_illegal hlegal)
  | true =>
    obtain ⟨i, -, -, -, hstep⟩ := exists_step_offer_of_legal hlegal
    exact .inr ⟨i, hstep⟩

/-- No command writes the host's events, the parameters or the clock port (log entries 1, 3, 4). -/
theorem exec_keeps_inputs {i : Instr} {s t : State} (h : exec i s = .next t) :
    t.host = s.host ∧ t.params = s.params ∧ t.nowMs = s.nowMs := by
  cases exec_effect h with
  | fatal => exact ⟨rfl, rfl, rfl⟩
  | refused hr => rw [hr.frame]; exact ⟨rfl, rfl, rfl⟩
  | accepted _ ha => cases ha <;> exact ⟨rfl, rfl, rfl⟩

/-- Settles O5: a refused word by the record of R193, a performed one by `exec_keeps_inputs`. -/
theorem commandsLeaveTheInputsAlone : Obligations.CommandsLeaveTheInputsAlone := by
  intro op a d s
  obtain hstep | ⟨i, hstep⟩ := step_offer_cases op a d s
  · exact ⟨_, hstep, rfl, rfl, rfl⟩
  · obtain ⟨t, ht⟩ := exec_next i s
    exact ⟨t, hstep.trans ht, exec_keeps_inputs ht⟩

/-- R61: a command is answered, with `n` and `r` 0 unless the answer is OK. -/
theorem exec_answers {i : Instr} {s t : State} (h : exec i s = .next t) :
    ∃ q, t.resp = some q ∧ (q.st ≠ .ok → q.n = 0#8 ∧ q.r = 0#64) := by
  cases exec_effect h with
  | fatal | refused => exact ⟨_, rfl, fun _ => ⟨rfl, rfl⟩⟩
  | accepted _ ha => cases ha <;> exact ⟨_, rfl, fun herr => absurd rfl herr⟩

/-- Table E: no status but OK has the number 0. -/
theorem status_code_eq_zero_iff (st : Status) : st.code = 0#8 ↔ st = .ok := by cases st <;> decide

/-- Table E: the numbers above 7 are reserved. -/
theorem status_code_le (st : Status) : st.code.toNat ≤ 7 := by cases st <;> decide

/-- Settles O11: the answer of a word (`exec_answers`), its three fields (Table F2), its status numbers, and a next state
from every state (`step_next`). -/
theorem everyCommandIsAnswered : Obligations.EveryCommandIsAnswered := by
  refine ⟨fun op a d s => ?_, fun q => ⟨cmdWord_op _ _ _, cmdWord_a _ _ _, cmdWord_d _ _ _⟩, status_code_eq_zero_iff,
    ⟨rfl, rfl, rfl, rfl, rfl, rfl, rfl, rfl, status_code_le⟩, step_next⟩
  obtain hstep | ⟨i, hstep⟩ := step_offer_cases op a d s
  · exact ⟨_, _, hstep, rfl, fun _ => ⟨rfl, rfl⟩⟩
  · obtain ⟨t, ht⟩ := exec_next i s
    obtain ⟨q, hq, herr⟩ := exec_answers ht
    exact ⟨t, q, hstep.trans ht, hq, herr⟩

end Sys2Proof.Machine

/-! Proofs. The register invariant: after reset, and kept by every step. -/

namespace Sys2Proof.Machine

open Sys2Proof.Spec

/-! ### Construction begun -/

/-- A construction begun keeps the invariant of the encoder and puts everything else at its value of Table Z. -/
theorem inv_beginConstruction {s : State} (henb : s.enb.toNat ≤ 4) (heacc : s.eacc.toNat < 2 ^ s.enb.toNat) :
    Inv (beginConstruction s) where
  digits_legal := .inl rfl
  period_pos   := by simp
  nb_le        := Nat.zero_le 7
  acc_lt       := Nat.one_pos
  enb_le       := henb
  eacc_lt      := heacc
  key_fits     := fun k _ => Nat.zero_le k
  cand_fits    := fun k _ => Nat.zero_le k
  dgst_fits    := Nat.zero_le 64
  candovf_full := nofun
  dgstovf_full := nofun
  coden_legal  := .inl rfl
  code_latched := rfl
  codeval_lt   := Nat.one_pos
  codeval_eq   := rfl
  codev_coden  := nofun
  err_failed   := nofun
  err_clear    := fun _ => ⟨rfl, rfl, rfl⟩
  acc_idle     := fun _ => ⟨rfl, rfl⟩
  key_dropped  := nofun

/-- The invariant holds after the reset input, from any state. -/
theorem inv_assertReset (s : State) : Inv (assertReset s) := by
  rw [assertReset_eq_beginConstruction]
  exact inv_beginConstruction (Nat.zero_le 4) Nat.one_pos

/-- Settles O58: the reset state is what the reset input makes of itself. -/
theorem resetStateKeepsTheInvariant : Obligations.ResetStateKeepsTheInvariant := inv_assertReset State.reset

/-! ### The registers a command writes -/

/-- R16: a legal digit count is at most 8. -/
theorem Inv.digits_le {s : State} (h : Inv s) : s.digits.toNat ≤ 8 := by
  obtain hd | hd | hd := h.digits_legal <;> simp [hd]

/-- R131: a completed truncation leaves in the latches what R24 and R25 say of them. -/
theorem Inv.latch {s : State} (h : Inv s) {g : List Byte} {x : Truncation} (hx : x = dt g s.digits.toNat) :
    Inv (latch x s) := by
  have hval : (BitVec.ofNat 27 (dtP31 g % 10 ^ s.digits.toNat)).toNat = dtP31 g % 10 ^ s.digits.toNat := by
    rw [BitVec.toNat_ofNat, Nat.mod_eq_of_lt (codeval_fits h.digits_le)]
  have hp31 : (BitVec.ofNat 31 (dtP31 g)).toNat = dtP31 g := by
    rw [BitVec.toNat_ofNat, Nat.mod_eq_of_lt (dtP31_lt g)]
  rw [hx, latch_dt]
  exact { h with
    coden_legal  := .inr h.digits_legal
    code_latched := by rw [latched, hval]; rfl
    codeval_lt   := by rw [latched, hval]; exact Nat.mod_lt _ (by positivity)
    codeval_eq   := by rw [latched, hval, hp31]
    codev_coden  := fun _ hzero => by obtain hd | hd | hd := h.digits_legal <;> simp [latched, hd] at hzero }

/-- R40: a buffer that has room for a byte holds its capacity after one more. -/
theorem withinCapacity_succ {len : Nat} {cap : Option Nat} (h : withinCapacity len cap) (hroom : cap ≠ some len) :
    withinCapacity (len + 1) cap := fun k hk =>
  Nat.lt_of_le_of_ne (h k hk) fun hlen => hroom (hlen ▸ hk)

/-- R128, R146: a keyed computation latches its truncation, and a digest of `HLEN` bytes. -/
theorem Inv.computeAt {s : State} (h : Inv s) (c : Word) : Inv (computeAt c s) :=
  have hlen : (hotpDigest s c).length ≤ 64 := by
    rw [hotpDigest, keyedHash_length]
    cases (hotpRequest s c).alg <;> decide
  { h.latch (x := hotpTrunc s c) rfl with
    dgst_fits    := hlen
    dgstovf_full := nofun }

/-- R20, R94: five more bits fit below a bound five bits higher. -/
theorem shift_in_lt {acc nb : Nat} (v : BitVec 5) (h : acc < 2 ^ nb) : acc * 2 ^ 5 + v.toNat < 2 ^ (nb + 5) := by
  have := v.isLt
  rw [pow_add]
  omega

/-- R22, R112: the loop leaves fewer than five bits. -/
theorem emitGroups_rest {acc nb : Nat} : (emitGroups nb acc nb).2 = nb % 5 := by
  obtain ⟨vs, hvs, -⟩ := emitGroups_spells (fuel := nb) (acc := acc) (nb := nb) (by omega)
  rw [hvs]

/-- A number that fits `m` bits is unchanged in a register at least that wide (log entry 15). -/
theorem toNat_ofNat_of_fits {w n m : Nat} (hn : n < 2 ^ m) (hm : m ≤ w) : (BitVec.ofNat w n).toNat = n := by
  rw [BitVec.toNat_ofNat, Nat.mod_eq_of_lt (hn.trans_le (Nat.pow_le_pow_right (by decide) hm))]

/-- An accepted character keeps the decoder's registers within R20 and R21. -/
theorem Accepted.inv_b32Push {s t : State} {c : Byte} (hacc : Accepted s (.b32Push c) t) (hp : s.phase = .build)
    (h : Inv s) : Inv t := by
  have hle := h.nb_le
  cases hacc with
  | b32Skip => exact { h with }
  | b32Collect _ v hc hn =>
    have hnb : (BitVec.ofNat 4 (s.nb.toNat + 5)).toNat = s.nb.toNat + 5 := toNat_ofNat_of_fits (m := 3) hn (by decide)
    have hlt := shift_in_lt v h.acc_lt
    exact { h with
      nb_le    := by rw [respond_nb, hnb]; omega
      acc_lt   := by rw [respond_nb, respond_acc, hnb, toNat_ofNat_of_fits hlt (by omega)]; exact hlt
      acc_idle := fun hne => absurd hp hne }
  | b32Emit _ v hc hn hroom =>
    have hnb : (BitVec.ofNat 4 (s.nb.toNat + 5 - 8)).toNat = s.nb.toNat + 5 - 8 :=
      toNat_ofNat_of_fits (m := 3) (by omega) (by decide)
    have hlt := Nat.mod_lt (s.acc.toNat * 2 ^ 5 + v.toNat) (Nat.two_pow_pos (s.nb.toNat + 5 - 8))
    exact { h with
      nb_le       := by rw [respond_nb, hnb]; omega
      acc_lt      := by rw [respond_nb, respond_acc, hnb, toNat_ofNat_of_fits hlt (by omega)]; exact hlt
      key_fits    := by
        rw [respond_key, List.length_append]
        exact withinCapacity_succ h.key_fits hroom
      acc_idle    := fun hne => absurd hp hne
      key_dropped := fun hfailed => by simp [hp] at hfailed }

/-- An accepted byte keeps the encoder's registers within R22. -/
theorem Accepted.inv_encPush {s t : State} {b : Byte} (hacc : Accepted s (.encPush b) t) (h : Inv s) : Inv t := by
  cases hacc with
  | encPush _ _ acc nb out _ _ hout =>
    have hrest : out.2 < 5 := by rw [hout, emitGroups_rest]; omega
    have henb : (BitVec.ofNat 4 out.2).toNat = out.2 := toNat_ofNat_of_fits (m := 3) (by omega) (by decide)
    have hlt := Nat.mod_lt acc (Nat.two_pow_pos out.2)
    exact { h with
      enb_le  := by rw [respond_enb, henb]; omega
      eacc_lt := by rw [respond_enb, respond_eacc, henb, toNat_ofNat_of_fits hlt (by omega)]; exact hlt }

/-- `COMMIT` out of BUILD keeps the invariant: the error registers were clear there, and the decoder is emptied (R172). -/
theorem Accepted.inv_commit {s t : State} (hacc : Accepted s .commit t) (hp : s.phase = .build) (h : Inv s) : Inv t := by
  have hclear := h.err_clear (by rw [hp]; decide)
  cases hacc
  exact { h with
    nb_le       := Nat.zero_le 7
    acc_lt      := Nat.one_pos
    err_failed  := nofun
    err_clear   := fun _ => hclear
    acc_idle    := fun _ => ⟨rfl, rfl⟩
    key_dropped := nofun }

/-- A digest staged or dropped keeps R14, R23 and R24. -/
theorem Accepted.inv_dgst {s t : State} {i : Instr} (hacc : Accepted s i t) (hi : i.op = .dgstClr ∨ i.op = .dgstPush)
    (h : Inv s) : Inv t := by
  cases hacc with
  | dgstClr =>
    exact { h with
      dgst_fits    := Nat.zero_le 64
      dgstovf_full := nofun
      coden_legal  := .inl rfl
      code_latched := rfl
      codeval_lt   := Nat.one_pos
      codeval_eq   := rfl
      codev_coden  := nofun }
  | dgstPush b hroom =>
    exact { h with
      dgst_fits    := by
        rw [respond_dgst, List.length_append]
        exact Nat.lt_of_le_of_ne h.dgst_fits hroom
      dgstovf_full := fun hovf => absurd (h.dgstovf_full hovf) hroom
      codev_coden  := nofun }
  | _ => simp [Instr.op] at hi

/-- A command that answers OK keeps the invariant: each case writes few registers, and the rest is as it was. -/
theorem Accepted.inv {s t : State} {i : Instr} (hacc : Accepted s i t) (hp : tableA i.op s.phase = true) (h : Inv s) :
    Inv t := by
  cases i with
  | init => cases hacc; exact { inv_beginConstruction h.enb_le h.eacc_lt with }
  | commit => exact hacc.inv_commit (beq_iff_eq.1 hp) h
  | b32Push c => exact hacc.inv_b32Push (beq_iff_eq.1 hp) h
  | encPush b => exact hacc.inv_encPush h
  | dgstClr | dgstPush => exact hacc.inv_dgst (by simp [Instr.op]) h
  | rd | cfgAlg | totpCtr | totpRem | totpVerify | totpWin => cases hacc; exact { h with }
  | cfgDigits v =>
    cases hacc with
    | cfgDigits _ hv =>
      refine { h with digits_legal := ?_ }
      obtain rfl | rfl | rfl := hv
      exacts [.inl rfl, .inr (.inl rfl), .inr (.inr rfl)]
  | cfgPeriod v =>
    cases hacc with
    | cfgPeriod _ hv => exact { h with period_pos := hv }
  | encClr => cases hacc; exact { h with enb_le := Nat.zero_le 4, eacc_lt := Nat.one_pos }
  | encEnd =>
    cases hacc with
    | encEndEmpty => exact { h with }
    | encEndRest => exact { h with enb_le := Nat.zero_le 4, eacc_lt := Nat.one_pos }
  | hotpTrunc =>
    cases hacc with
    | hotpTrunc _ x hx => exact { h.latch hx with }
  | hotpCompute | totpGen => cases hacc; exact h.computeAt _
  | candClr => cases hacc; exact { h with cand_fits := fun k _ => Nat.zero_le k, candovf_full := nofun }
  | candPush c =>
    cases hacc with
    | candPush _ hroom =>
      exact { h with
        cand_fits    := by
          rw [respond_cand, List.length_append]
          exact withinCapacity_succ h.cand_fits hroom
        candovf_full := fun hovf => absurd (h.candovf_full hovf) hroom }

/-! ### Commands and steps -/

/-- A refusal keeps the invariant: the flag it may raise is that of a buffer found full (R193). -/
theorem Refused.inv {s s' : State} {i : Instr} {e : RefusalCause} (hr : Refused s i e s') (h : Inv s) :
    Inv (raiseRefusal e s') := by
  cases hr with
  | absent | phase | candidateCut | digestUnusable => exact { h with }
  | candidateFull c hfull => exact { h with candovf_full := fun _ => hfull }
  | digestFull b hfull => exact { h with dgstovf_full := fun _ => hfull }

/-- A fatal error keeps the invariant: it leaves FAILED with its code, no key and an empty decoder (R192). -/
theorem inv_raiseFatal {s : State} (h : Inv s) (e : FatalError) (o : Op) (d : Word) : Inv (raiseFatal e o d s) :=
  { h with
    nb_le       := Nat.zero_le 7
    acc_lt      := Nat.one_pos
    key_fits    := fun k _ => Nat.zero_le k
    err_failed  := fun _ => fatal_code_cases e
    err_clear   := fun hne => absurd rfl hne
    acc_idle    := fun _ => ⟨rfl, rfl⟩
    key_dropped := fun _ => rfl }

/-- Every command keeps the invariant, however it ends. -/
theorem exec_keeps_inv {i : Instr} {s t : State} (h : Inv s) (hexec : exec i s = .next t) : Inv t := by
  cases exec_effect hexec with
  | fatal => exact inv_raiseFatal h _ _ _
  | refused hr => exact hr.inv h
  | accepted hp ha => exact ha.inv hp h

/-- Settles O59: with nothing presented the state stays, a word is refused or performed (`exec_keeps_inv`), and reset
leaves a state with the invariant (`inv_assertReset`). -/
theorem everyStepKeepsTheInvariant : Obligations.EveryStepKeepsTheInvariant := by
  intro s t h hstep
  cases hhost : s.host with
  | nil =>
    obtain rfl : s = t := by simpa [step, hhost] using hstep
    exact h
  | cons ev rest =>
    cases ev with
    | command w now =>
      have hs : Inv { s with host := rest, nowMs := now } := { h with }
      cases hdec : decodeWord s.params.hasEnc w with
      | ok i => exact exec_keeps_inv hs ((step_of_decode_ok hhost hdec).symm.trans hstep)
      | error e =>
        obtain rfl := Host.Outcome.next.inj ((step_of_decode_error hhost hdec).symm.trans hstep)
        exact { hs with }
    | reset =>
      obtain rfl := Host.Outcome.next.inj ((step_reset hhost).symm.trans hstep)
      exact inv_assertReset _

end Sys2Proof.Machine

/-! Proofs. Whole constructions: the encoder's text decoded again, and `construct` (R77) performed. -/

namespace Sys2Proof.Machine

open Sys2Proof.Spec

/-! ### Bits determine bytes -/

/-- The bits of a word determine it. -/
theorem bitsOf_injective (w : Nat) : Function.Injective (bitsOf (w := w)) := by
  intro x y h
  refine BitVec.eq_of_getLsbD_eq fun i hi => ?_
  have hbit := List.map_inj_left.1 h (w - 1 - i) (List.mem_range.2 (by omega))
  rwa [show w - 1 - (w - 1 - i) = i by omega] at hbit

/-- The bit string of a byte sequence determines it. -/
theorem flatMap_bitsOf_inj {xs ys : List Byte} (h : xs.flatMap bitsOf = ys.flatMap bitsOf) : xs = ys := by
  induction xs generalizing ys with
  | nil =>
    cases ys with
    | nil => rfl
    | cons y ys => simp [bitsOf] at h
  | cons x xs ih =>
    cases ys with
    | nil => simp [bitsOf] at h
    | cons y ys =>
      obtain ⟨hx, hxs⟩ := List.append_inj h (by simp)
      rw [bitsOf_injective 8 hx, ih hxs]

/-! ### The encoder's text decoded -/

/-- R69, R70: a legal whitespace set takes no symbol away, so a text of symbols has their values. -/
theorem cls_symbol {p : Params} (hp : p.wsLegal = true) (v : BitVec 5) : cls p.ws (symbol v.toNat) = .sym v :=
  cls_of_wsLegal hp (by revert v; decide)

theorem symbolsOf_symbols {p : Params} (hp : p.wsLegal = true) (vs : List (BitVec 5)) :
    symbolsOf p.ws (symbols vs) = vs := by
  simp [symbolsOf, symbols, List.filterMap_map, cls_symbol hp]

/-- R101, R115: the whole bytes of the encoder's text are the bytes it was given: the filling is shorter than one. -/
theorem key_of_encoded {s t : State} {x : List Byte} {vs : List (BitVec 5)} {k : Nat} (hk : k < 8)
    (hbits : vs.flatMap bitsOf = x.flatMap bitsOf ++ List.replicate k false) (h : Decoding s (vs.flatMap bitsOf) t) :
    t.key = x := by
  have hkey := h.key_bits
  have hwhole : 8 * ((x.flatMap bitsOf ++ List.replicate k false).length / 8) = (x.flatMap bitsOf).length := by
    rw [List.length_append, length_flatMap_bitsOf, List.length_replicate]
    omega
  rw [hbits, hwhole, List.take_left] at hkey
  exact flatMap_bitsOf_inj hkey

/-- Settles O24: the encoder's text spells the bits of the bytes (`b32Encode_spells`), which the decoder takes in
(`decoding_of_fresh`), and whose whole bytes are the key (`key_of_encoded`). -/
theorem decodeOfEncodedBytesIsTheBytes : Obligations.DecodeOfEncodedBytesIsTheBytes := by
  intro s x hs henc hws hroom
  obtain ⟨vs, hvs, hbits⟩ := b32Encode_spells x henc
  have hsymbols := symbolsOf_symbols hws vs
  have hlen := congrArg List.length hbits
  rw [List.length_append, length_flatMap_bitsOf, length_flatMap_bitsOf, List.length_replicate] at hlen
  have hvalid : ∀ c ∈ symbols vs, cls s.params.ws c ≠ .invalid := by
    intro c hc
    obtain ⟨v, -, rfl⟩ := List.mem_map.1 hc
    simp [cls_symbol hws]
  obtain ⟨t, ht, h⟩ := decoding_of_fresh hs hvalid
    (by rw [hsymbols, hlen, show (8 * x.length + (5 - 8 * x.length % 5) % 5) / 8 = x.length by omega]; exact hroom)
  rw [textBits, hsymbols] at h
  have hkey := key_of_encoded (by omega) hbits h
  refine ⟨t, _, hvs ▸ ht, exec_commit_of_build h.phase, hkey, rfl, ?_⟩
  rw [respond_resp, hkey]
  rfl

/-! ### `construct` -/

/-- R77: a command that answers OK hands on to the rest of the expansion. -/
theorem perform_cons {i : Instr} {is : List Instr} {s t : State} (h : exec i s = .next t)
    (hok : t.lastStatus = some .ok) : perform (i :: is) s = perform is t := by
  have hlast : lastOk t = true := by
    obtain ⟨q, hq, hst⟩ := Option.map_eq_some_iff.1 hok
    simp [lastOk, hq, hst]
  simp [perform, h, hlast]

/-- R71: the algorithm a legal value of `CFG.ALG` names. -/
def algNamed (v : Word) : Alg := if v.toNat = 0 then .sha1 else if v.toNat = 1 then .sha256 else .sha512

theorem algCode_algNamed {v : Word} (hv : v.toNat ≤ 2) : (algCode (algNamed v)).toNat = v.toNat := by
  obtain rfl | rfl | rfl : v = 0#64 ∨ v = 1#64 ∨ v = 2#64 := by bv_omega
  all_goals rfl

/-- The state with the configuration given to `construct`, and its own where no value is given (R77). -/
def configured (digits period alg : Option Word) (s : State) : State :=
  { s with
    digits := digits.elim s.digits fun v => BitVec.ofNat 4 v.toNat
    period := period.getD s.period
    alg    := alg.elim s.alg algNamed }

/-- An optional command of an expansion that, with the value given if there is one, answers OK and leaves `u` (R77). -/
theorem perform_optional {f : Word → Instr} {v? : Option Word} {is : List Instr} {s u : State}
    (hnone : v? = none → s = answer 0#8 0#64 u) (hsome : ∀ v, v? = some v → exec (f v) s = .next (answer 0#8 0#64 u)) :
    perform (v?.toList.map f ++ is) s = perform is (answer 0#8 0#64 u) := by
  cases v? with
  | none => rw [← hnone rfl]; rfl
  | some v => exact perform_cons (hsome v rfl) rfl

/-- R173 to R175: the optional `CFG` commands of `construct`, with legal values, write the configuration given. -/
theorem perform_configuration {digits period alg : Option Word} {s : State} (is : List Instr) (hp : s.phase = .build)
    (hdigits : ∀ v, digits = some v → v.toNat = 6 ∨ v.toNat = 7 ∨ v.toNat = 8)
    (hperiod : ∀ v, period = some v → v.toNat ≠ 0) (halg : ∀ v, alg = some v → v.toNat ≤ 2) :
    perform (digits.toList.map .cfgDigits ++ (period.toList.map .cfgPeriod ++ (alg.toList.map .cfgAlg ++ is)))
        (answer 0#8 0#64 s) =
      perform is (answer 0#8 0#64 (configured digits period alg s)) := by
  obtain ⟨-, -, -, hcfg⟩ := configurationIsCheckedAndWritten
  rw [perform_optional (u := configured digits none none s) (by rintro rfl; rfl) fun v hv => ?digits,
    perform_optional (u := configured digits period none s) (by rintro rfl; rfl) fun v hv => ?period,
    perform_optional (u := configured digits period alg s) (by rintro rfl; rfl) fun v hv => ?alg]
  case digits =>
    obtain ⟨hexec, -⟩ := hcfg v (answer 0#8 0#64 s) hp
    rw [hexec, cfgDigitsEffect, if_pos (hdigits v hv), hv]
    rfl
  case period =>
    obtain ⟨-, hexec, -⟩ := hcfg v (answer 0#8 0#64 (configured digits none none s)) hp
    rw [hexec, cfgPeriodEffect, if_neg (hperiod v hv), hv]
    rfl
  case alg =>
    obtain ⟨-, -, hexec⟩ := hcfg v (answer 0#8 0#64 (configured digits period none s)) hp
    rw [hexec, cfgAlgEffect, if_neg (not_lt.2 (halg v hv)), hv]
    rfl

/-- R77: a text that leaves BUILD standing had every character accepted, so its expansion went on. -/
theorem perform_b32Push {text : List Byte} {is : List Instr} {s t : State}
    (h : performAll (text.map .b32Push) s = .next t) (hp : t.phase = .build) :
    perform (text.map .b32Push ++ is) s = perform is t := by
  induction text generalizing s with
  | nil => cases h; rfl
  | cons c text ih =>
    obtain ⟨u, hu, he⟩ := exec_next_effect (.b32Push c) s
    rw [List.map_cons, performAll, hu] at h
    have hbuild : u.phase = .build := by
      by_contra hne
      obtain ⟨b, q, r, hrest⟩ := performAll_b32Push_refused hne text
      obtain rfl := Host.Outcome.next.inj (hrest.symm.trans h)
      exact hne hp
    refine (perform_cons hu ?_).trans (ih h)
    cases he with
    | fatal => cases hbuild
    | refused hr =>
      cases hr with
      | absent _ hi => cases hi
      | phase _ hi => simp [Instr.op, tableA, show s.phase = .build from hbuild] at hi
    | accepted _ ha => exact ha.lastStatus

/-- Settles O25: `INIT` and the `CFG` commands leave a fresh decoder with the configuration given, the text its bits
(`decoding_of_fresh`), and `COMMIT` the rest. -/
theorem constructBuildsTheInstance : Obligations.ConstructBuildsTheInstance := by
  intro s text digits period alg hvalid hroom hdigits hperiod halg
  obtain ⟨t, ht, h⟩ := decoding_of_fresh (s := answer 0#8 0#64 (configured digits period alg (afterInit s)))
    ⟨rfl, rfl, rfl, rfl⟩ hvalid hroom
  obtain ⟨hklen, -⟩ := h.counts
  have hkey := h.key_bits
  rw [length_textBits] at hklen hkey
  have hrun : execPseudo (.construct text digits period alg) s = exec .commit t := by
    simp only [execPseudo, Pseudo.expand, List.cons_append, List.append_assoc]
    rw [perform_cons (exec_init s) rfl, perform_configuration _ rfl hdigits hperiod halg,
      perform_b32Push ht h.phase]
    obtain ⟨u, hu⟩ := exec_next .commit t
    simp [perform, hu]
  rw [exec_commit_of_build h.phase] at hrun
  refine ⟨_, hrun, rfl, rfl, ?_, ?_, ?_, hklen, hkey, rfl, rfl, ?_, ?_⟩
  · rw [respond_digits, h.frame]
    cases digits with
    | none => rfl
    | some v =>
      show (BitVec.ofNat 4 v.toNat).toNat = v.toNat
      have := hdigits v rfl
      rw [BitVec.toNat_ofNat]
      omega
  · rw [respond_period, h.frame]
    cases period <;> rfl
  · rw [respond_alg, h.frame]
    cases alg with
    | none => rfl
    | some v => exact algCode_algNamed (halg v rfl)
  · rw [respond_err, h.frame]
    rfl
  · rw [respond_perr, h.frame]
    rfl

end Sys2Proof.Machine

/-! Proofs. Codes, strings and the comparator: shorter codes, packed strings, which candidates verify. -/

namespace Sys2Proof.Machine

open Sys2Proof.Spec

/-! ### Shorter codes -/

/-- R73: a code of `k + dg` digits is that of the number above its low `dg` digits, then that of the low ones. -/
theorem render_add (v k dg : Nat) : render v (k + dg) = render (v / 10 ^ dg) k ++ render v dg := by
  induction dg generalizing v with
  | zero => simp [render]
  | succ dg ih =>
    rw [← Nat.add_assoc, render_succ, render_succ, ih, Nat.div_div_eq_div_mul, ← pow_succ', List.append_assoc]

/-- R73: a code of `dg` digits shows the number modulo `10^dg`. -/
theorem render_mod (v dg : Nat) : render (v % 10 ^ dg) dg = render v dg := by
  induction dg generalizing v with
  | zero => rfl
  | succ dg ih =>
    have hunits : v % 10 ^ (dg + 1) % 10 = v % 10 := Nat.mod_mod_of_dvd v (dvd_pow_self 10 dg.succ_ne_zero)
    rw [render_succ, render_succ, hunits, pow_succ', Nat.mod_mul_right_div_self, ih]

/-- Settles O32: the value of fewer digits is reduced from that of more, and its code is the end (`render_add`). -/
theorem shorterCodeIsTheEndOfTheLonger : Obligations.ShorterCodeIsTheEndOfTheLonger := by
  intro g dg1 dg2 hlt hle
  have hval {dg : Nat} (hdg : dg ≤ 8) : (BitVec.ofNat 27 (dtP31 g % 10 ^ dg)).toNat = dtP31 g % 10 ^ dg :=
    toNat_ofNat_of_fits (codeval_fits hdg) le_rfl
  have hp31 : (BitVec.ofNat 31 (dtP31 g)).toNat = dtP31 g := toNat_ofNat_of_fits (dtP31_lt g) le_rfl
  simp only [dt_eq, hval hle, hval (hlt.le.trans hle), render_mod]
  refine ⟨dtP31_lt g, fun _ _ => ⟨hp31, hp31⟩, Nat.mod_lt _ (by positivity),
    (Nat.mod_mod_of_dvd _ (pow_dvd_pow 10 hlt.le)).symm, ?_⟩
  obtain ⟨k, rfl⟩ := Nat.exists_eq_add_of_le' hlt.le
  rw [render_add, Nat.add_sub_cancel, List.drop_left' (render_length _ k)]

/-! ### Packed strings -/

/-- R62: a string is packed as it is with zero bytes after it, up to eight. -/
theorem packString_padded {bs : List Byte} (h : bs.length ≤ 8) :
    packString (bs ++ List.replicate (8 - bs.length) 0#8) = packString bs := by
  have hlen : bs.length + (8 - bs.length) = 8 := by omega
  simp [packString, hlen]

/-- Settles O33: byte `j` of the padded string (`packString_byte`); the example by evaluation. -/
theorem stringsArePackedFirstByteHighest : Obligations.StringsArePackedFirstByteHighest := by
  refine ⟨fun bs hlen j hj => ?_, by decide⟩
  have hpad : (bs ++ List.replicate (8 - bs.length) 0#8).length = 8 := by simp; omega
  rw [← packString_padded hlen, packString_byte hpad.le (by omega), ← List.getD_eq_getElem _ 0#8]
  obtain hin | hout := lt_or_ge j bs.length
  · exact List.getD_append _ _ _ _ hin
  · rw [List.getD_append_right _ _ _ _ hout, List.getD_eq_default _ _ hout, List.getD_replicate _ (by omega)]

/-! ### Verifying -/

/-- R152: the walk over the window matches exactly when a counter of the window has the candidate as its code. -/
theorem windowRun_iff {s : State} {now : Nat} (hnow : now < 2 ^ 64) : (windowRun s now).1 = true ↔
    ∃ c, now - s.window.toNat ≤ c ∧ c ≤ now + s.window.toNat ∧ c < 2 ^ 64 ∧ codeAt s c = trim s.params.ws s.cand := by
  rw [windowRun, windowWalk_matched]
  simp only [hitAt_iff, windowLow, windowHigh]
  constructor
  · rintro ⟨j, hj, hhit⟩
    exact ⟨_, by omega, by omega, by omega, hhit⟩
  · rintro ⟨c, hlow, hhigh, hfits, hhit⟩
    exact ⟨c - (now - s.window.toNat), by omega, by rwa [Nat.add_sub_cancel' hlow]⟩

/-- Settles O37: the answer is that of the walk (`exec_totpVerify_walk`), which matches by `windowRun_iff`. -/
theorem verifyAcceptsExactlyTheWindow : Obligations.VerifyAcceptsExactlyTheWindow := by
  intro x s hp hc now
  refine ⟨_, _, exec_totpVerify_walk x hp hc, rfl, ?_, ?_⟩
  · split <;> simp
  · rw [← windowRun_iff (counter_lt x s)]
    split <;> simp [*]

/-- R150: a text without `WS` bytes is its own trim. -/
theorem trim_eq_self {ws bs : List Byte} (h : ∀ c ∈ bs, c ∉ ws) : trim ws bs = bs := by
  have hfront (l : List Byte) (hl : ∀ c ∈ l, c ∉ ws) : l.dropWhile (· ∈ ws) = l := by
    rw [List.dropWhile_eq_self_iff]
    intro hpos
    simpa using hl _ (List.getElem_mem hpos)
  rw [trim, hfront bs h, hfront bs.reverse (by simpa using h), List.reverse_reverse]

/-- Log entry 17: with no digit in `WS` a code is not trimmed. -/
theorem trim_codeAt {p : Params} (hp : p.wsNoDigit = true) (s : State) (c : Nat) :
    trim p.ws (codeAt s c) = codeAt s c := by
  refine trim_eq_self fun b hb hws => ?_
  obtain ⟨-, hdigits⟩ := codeAt_digits s c
  have hlegal := List.all_eq_true.1 hp b hws
  have := hdigits b hb
  simp only [Bool.not_eq_true', Bool.and_eq_false_iff, decide_eq_false_iff_not] at hlegal
  bv_omega

/-- R128: the characters a keyed computation answers are the code of its counter. -/
theorem answerChars_computeEffect {s : State} (hs : Inv s) (c : Nat) :
    answerChars (computeEffect c s) = codeAt s c := by
  obtain ⟨hlen, -⟩ := codeAt_digits s c
  have hchars := answerChars_respond (cs := codeAt s c) (by rw [hlen]; exact hs.digits_le) s
  rw [hlen] at hchars
  exact hchars

/-- Settles O43: the candidate loaded is the code of the counter of the time (`answerChars_computeEffect`), which is in
every window (`windowRun_iff`). -/
theorem generatedCodeVerifies : Obligations.GeneratedCodeVerifies := by
  intro s g x w hs hp hws hgen
  rw [exec_totpGen, if_neg (not_not.2 hp)] at hgen
  obtain rfl := Host.Outcome.next.inj hgen
  rw [answerChars_computeEffect hs]
  refine ⟨_, exec_totpVerify_walk x hp rfl, ?_⟩
  rw [windowAnswer, (windowRun_iff (counter_lt x _)).2 ⟨secondsOf x s / s.period.toNat, ?_, ?_, counter_lt x s, ?_⟩]
  · rfl
  · exact Nat.sub_le _ _
  · exact Nat.le_add_right _ _
  · exact (trim_codeAt hws s _).symm

end Sys2Proof.Machine

/-! Proofs. What commands write: in READY, the four buffers, the keyed-hash requests. -/

namespace Sys2Proof.Machine

open Sys2Proof.Spec

/-! ### READY -/

/-- The state with the registers R32 lets a command write in READY taken from `t`: the window, the candidate, the
truncation engine's registers and `PERR`, and the ports. -/
def withReadyWrites (t s : State) : State :=
  { s with
    window := t.window, cand := t.cand, candovf := t.candovf
    dgst := t.dgst, dgstovf := t.dgstovf, offset := t.offset, p31 := t.p31, codeval := t.codeval
    code := t.code, coden := t.coden, codev := t.codev
    perr := t.perr, resp := t.resp, reqs := t.reqs }

/-- R32: outside BUILD a command that is neither `INIT` nor the encoder's writes only what R32 lists. -/
theorem Accepted.eq_withReadyWrites {s t : State} {i : Instr} (ha : Accepted s i t) (hp : tableA i.op .ready = true)
    (hinit : i.op ≠ .init) (hclr : i.op ≠ .encClr) (hpush : i.op ≠ .encPush) (hend : i.op ≠ .encEnd) :
    t = withReadyWrites t s := by
  cases ha with
  | init => exact absurd rfl hinit
  | encClr => exact absurd rfl hclr
  | encPush => exact absurd rfl hpush
  | encEndEmpty | encEndRest => exact absurd rfl hend
  | commit | cfgDigits | cfgPeriod | cfgAlg | b32Skip | b32Collect | b32Emit => cases hp
  | _ => rfl

/-- Settles O50: no fatal error leaves READY, a refusal raises flags only (`Refused.frame`), and an accepted command
writes what R32 lists (`Accepted.eq_withReadyWrites`) or the encoder's registers (`encoder_frame`). -/
theorem readyInstanceIsImmutable : Obligations.ReadyInstanceIsImmutable := by
  intro i s t hp hinit hexec
  have hlisted (hclr : i.op ≠ .encClr) (hpush : i.op ≠ .encPush) (hend : i.op ≠ .encEnd) : t = withReadyWrites t s := by
    cases exec_effect hexec with
    | fatal hbuild => simp [hp] at hbuild
    | refused hr => rw [hr.frame]; rfl
    | accepted ha hacc => exact hacc.eq_withReadyWrites (hp ▸ ha) hinit hclr hpush hend
  suffices hkeep : t.phase = s.phase ∧ t.key = s.key ∧ t.digits = s.digits ∧ t.period = s.period ∧ t.alg = s.alg by
    obtain ⟨hphase, hkey, hdigits, hperiod, halg⟩ := hkeep
    exact ⟨hphase.trans hp, hkey, hdigits, hperiod, halg, hlisted⟩
  by_cases henc : i.op = .encClr ∨ i.op = .encPush ∨ i.op = .encEnd
  · rw [encoder_frame henc hexec]
    exact ⟨rfl, rfl, rfl, rfl, rfl⟩
  · obtain ⟨hclr, hpush, hend⟩ : i.op ≠ .encClr ∧ i.op ≠ .encPush ∧ i.op ≠ .encEnd := by simpa [not_or] using henc
    rw [hlisted hclr hpush hend]
    exact ⟨rfl, rfl, rfl, rfl, rfl⟩

/-! ### The keyed-hash requests -/

/-- R50: an accepted command asks for nothing, or is one of the three keyed commands. -/
theorem Accepted.reqs {s t : State} {i : Instr} (ha : Accepted s i t) :
    (t.reqs = [] ∧ i.op ≠ .hotpCompute ∧ i.op ≠ .totpGen) ∨
    ((i.op = .hotpCompute ∨ i.op = .totpGen) ∧ ∃ c, t = computeAt c s) ∨
    (i.op = .totpVerify ∧ ∀ q ∈ t.reqs, ∃ c, q = hotpRequest s c) := by
  cases ha with
  | hotpCompute c => exact .inr (.inl ⟨.inl rfl, c, rfl⟩)
  | totpGen x => exact .inr (.inl ⟨.inr rfl, _, rfl⟩)
  | totpVerify x hc now low walk =>
    refine .inr (.inr ⟨rfl, fun q hq => ?_⟩)
    obtain ⟨j, -, rfl⟩ := List.mem_map.1 hq
    exact ⟨_, rfl⟩
  | _ => exact .inl ⟨rfl, nofun, nofun⟩

theorem Accepted.answeredOk {s t : State} {i : Instr} (ha : Accepted s i t) : t.answeredOk = true := by
  cases ha <;> rfl

/-- Settles O57: an error asks for nothing, and an accepted command what `Accepted.reqs` says. -/
theorem onlyThreeCommandsAskTheKeyedHash : Obligations.OnlyThreeCommandsAskTheKeyedHash := by
  intro i s t hexec
  cases exec_effect hexec with
  | fatal => simp [State.answeredOk]
  | refused => simp [State.answeredOk]
  | accepted _ ha =>
    rw [ha.answeredOk]
    obtain ⟨hnone, hcompute, hgen⟩ | ⟨hkeyed, c, rfl⟩ | ⟨hverify, hasked⟩ := ha.reqs
    · simp [hnone, hcompute, hgen]
    · refine ⟨fun _ => by rw [if_pos ⟨rfl, hkeyed⟩]; rfl, nofun, fun q hq => ?_⟩
      obtain rfl := List.mem_singleton.1 hq
      exact ⟨rfl, rfl, c, rfl⟩
    · refine ⟨fun hne => absurd hverify hne, nofun, fun q hq => ?_⟩
      obtain ⟨c, rfl⟩ := hasked q hq
      exact ⟨rfl, rfl, c, rfl⟩

/-! ### The four buffers -/

/-- Table B, `KEY`: an accepted command leaves it, adds a byte to it or empties it. -/
theorem Accepted.key {s t : State} {i : Instr} (ha : Accepted s i t) :
    t.key = s.key ∨ (i.op = .b32Push ∧ ∃ b, t.key = s.key ++ [b]) ∨ (t.key = [] ∧ i.op = .init) := by
  cases ha with
  | init => exact .inr (.inr ⟨rfl, rfl⟩)
  | b32Emit => exact .inr (.inl ⟨rfl, _, rfl⟩)
  | _ => exact .inl rfl

/-- R8, Table P: a keyed computation stages the digest of its one request, of the length of its algorithm. -/
theorem computeAt_dgst (c : Word) (s : State) : ∃ q, (computeAt c s).reqs = [q] ∧
    (computeAt c s).dgst = keyedHash s.params q ∧ (computeAt c s).dgst.length = hlen s.alg :=
  ⟨hotpRequest s c, rfl, rfl, keyedHash_length _ _⟩

/-- Table B, `DGST`: an accepted command leaves it, adds a byte to it, empties it or stages a keyed digest. -/
theorem Accepted.dgst {s t : State} {i : Instr} (ha : Accepted s i t) :
    t.dgst = s.dgst ∨ (i.op = .dgstPush ∧ ∃ b, t.dgst = s.dgst ++ [b]) ∨
      (t.dgst = [] ∧ (i.op = .dgstClr ∨ i.op = .init)) ∨
      ((i.op = .hotpCompute ∨ i.op = .totpGen) ∧ ∃ c, t = computeAt c s) := by
  cases ha with
  | init => exact .inr (.inr (.inl ⟨rfl, .inr rfl⟩))
  | dgstClr => exact .inr (.inr (.inl ⟨rfl, .inl rfl⟩))
  | dgstPush b => exact .inr (.inl ⟨rfl, b, rfl⟩)
  | hotpCompute c => exact .inr (.inr (.inr ⟨.inl rfl, c, rfl⟩))
  | totpGen x => exact .inr (.inr (.inr ⟨.inr rfl, _, rfl⟩))
  | _ => exact .inl rfl

/-- Table B, `CAND`: an accepted command leaves it, adds a byte to it or empties it. -/
theorem Accepted.cand {s t : State} {i : Instr} (ha : Accepted s i t) :
    t.cand = s.cand ∨ (i.op = .candPush ∧ ∃ b, t.cand = s.cand ++ [b]) ∨
      (t.cand = [] ∧ (i.op = .candClr ∨ i.op = .init)) := by
  cases ha with
  | init => exact .inr (.inr ⟨rfl, .inr rfl⟩)
  | candClr => exact .inr (.inr ⟨rfl, .inl rfl⟩)
  | candPush c => exact .inr (.inl ⟨rfl, c, rfl⟩)
  | _ => exact .inl rfl

/-- Table B, `CODE`: an accepted command leaves it, latches a code in it or wipes it. -/
theorem Accepted.code {s t : State} {i : Instr} (ha : Accepted s i t) :
    (t.code = s.code ∧ t.coden = s.coden) ∨ i.op = .hotpTrunc ∨ i.op = .hotpCompute ∨ i.op = .totpGen ∨
      (t.code = Vector.replicate 8 0#8 ∧ t.coden = 0#4 ∧ (i.op = .dgstClr ∨ i.op = .init)) := by
  cases ha with
  | init => exact .inr (.inr (.inr (.inr ⟨zeroCode_eq, rfl, .inr rfl⟩)))
  | dgstClr => exact .inr (.inr (.inr (.inr ⟨zeroCode_eq, rfl, .inl rfl⟩)))
  | hotpTrunc => exact .inr (.inl rfl)
  | hotpCompute => exact .inr (.inr (.inl rfl))
  | totpGen => exact .inr (.inr (.inr (.inl rfl)))
  | _ => exact .inl ⟨rfl, rfl⟩

/-- Settles O56: a fatal error drops the key alone, a refusal leaves the four buffers, and an accepted command writes
each as its lemma says. -/
theorem buffersAreWrittenAsTableBSays : Obligations.BuffersAreWrittenAsTableBSays := by
  intro i s t st hexec hst
  obtain ⟨e, rfl, -, -, rfl⟩ | ⟨e, s', rfl, hr, rfl⟩ | ⟨rfl, -, ha⟩ := exec_ends hexec hst
  · exact ⟨.inr (.inr ⟨rfl, .inr (isFatal_fatal e)⟩), .inl rfl, .inl rfl, .inl ⟨rfl, rfl⟩⟩
  · rw [hr.frame]
    exact ⟨.inl rfl, .inl rfl, .inl rfl, .inl ⟨rfl, rfl⟩⟩
  · refine ⟨?_, ?_, ha.cand, ha.code⟩
    · obtain hkeep | ⟨hop, hgrow⟩ | ⟨hempty, hop⟩ := ha.key
      · exact .inl hkeep
      · exact .inr (.inl ⟨hop, rfl, hgrow⟩)
      · exact .inr (.inr ⟨hempty, .inl hop⟩)
    · obtain hkeep | hgrow | hempty | ⟨hop, c, rfl⟩ := ha.dgst
      · exact .inl hkeep
      · exact .inr (.inl hgrow)
      · exact .inr (.inr (.inl hempty))
      · obtain ⟨q, hq, hdigest, hlen⟩ := computeAt_dgst c s
        exact .inr (.inr (.inr ⟨hop, q, hq, hdigest, hlen.trans (by cases s.alg <;> rfl)⟩))

end Sys2Proof.Machine

/-! Proofs. `COMMIT`, `RD` and the staged buffers as their rules write them. -/

namespace Sys2Proof.Machine

open Sys2Proof.Spec

/-! ### Words and phase checks -/

/-- The word of a command whose operand is the low byte of `d`: `a` and the bits above it are reserved (R64 (a), R65). -/
theorem step_offer_byte_operand {f : Byte → Instr} {s u : State} (a : Byte) (d : Word)
    (hf : f = .b32Push ∨ f = .dgstPush ∨ f = .candPush) (hexec : exec (f (d.setWidth 8)) s = .next u) :
    step (offer (f (d.setWidth 8)).op.code a d s) =
      .next (if a.toNat ≠ 0 ∨ 256 ≤ d.toNat then refuse .illegalCommand s else u) := by
  refine step_offer_eq_ite (fun hbad => ?_) (fun hgood => ?_)
  · obtain rfl | rfl | rfl := hf <;>
      simpa only [Instr.op, Op.present, operandsLegal, Bool.true_and, Bool.and_eq_false_iff, beq_eq_false_iff_ne,
        decide_eq_false_iff_not, not_lt] using hbad
  · obtain ⟨ha, hd⟩ := not_or.1 hgood
    obtain rfl : a = 0#8 := BitVec.eq_of_toNat_eq (not_not.1 ha)
    have hback := setWidth_low_byte (not_le.1 hd)
    obtain rfl | rfl | rfl := hf <;> exact ⟨by rw [Instr.fields, hback], rfl, hexec⟩

/-- R177: the check of a command accepted in BUILD and READY. -/
theorem requirePhase_notFailed (body s : State) :
    requirePhase s.phase.notFailed body s = if s.phase = .failed then refuse .wrongPhase s else body := by
  by_cases hp : s.phase = .failed
  · rw [requirePhase_eq_refuse (by rw [hp]; rfl), if_pos hp]
  · rw [(notFailed_iff _).2 hp, requirePhase_true, if_neg hp]

/-! ### `COMMIT` -/

/-- R172, after the reserved bits. -/
theorem exec_commit (s : State) : exec .commit s =
    .next (if s.phase ≠ .build then refuse .wrongPhase s else commitEffect s) := by
  rw [exec, execCommit, requirePhase_inBuild]
  rfl

/-- Settles O13: the word by `step_offer_no_operand`, the command by `exec_commit`. -/
theorem commitEndsTheConstruction : Obligations.CommitEndsTheConstruction :=
  ⟨fun a d s => step_offer_no_operand (i := .commit) a d (by simp) (exec_commit s),
    fun s hp => by rw [exec_commit, if_neg (not_not.2 hp)]⟩

/-! ### `RD` -/

/-- R27: the STATUS word adds up its fields, each at its place. -/
theorem statusWord_eq_tableR (s : State) : statusWord s = tableR 0 s := by
  simp only [statusWord, tableR]
  cases s.phase <;> cases s.perr <;> cases s.candovf <;> cases s.dgstovf <;> cases s.codev <;> rfl

/-- R27, U14: the value column of Table R by register numbers. -/
theorem readReg_eq_tableR (k : Reg) (s : State) : readReg k s = tableR k.num.toNat s := by
  cases k with
  | status => exact statusWord_eq_tableR s
  | err | errop | digits | nb | coden | enb => exact (BitVec.ofNat_toNat _ _).symm
  | alg =>
    show (algCode s.alg).setWidth 64 = tableR 6 s
    simp only [tableR]
    cases s.alg <;> rfl
  | offset | p31 | codeval => exact congrArg (whileLatched s) (BitVec.ofNat_toNat _ _).symm
  | errd | period | window | klen | clen | dlen | code => rfl

/-- R176 with U14: the count that goes with a register read, by its number. -/
theorem readCount_eq (k : Reg) (s : State) : readCount k s =
    if k.num.toNat = 15 ∧ s.codev = true then BitVec.ofNat 8 s.coden.toNat else 0#8 := by
  cases k with
  | code => simp [readCount, Reg.num, whileLatched, BitVec.ofNat_toNat]
  | _ => rfl

/-- R176: a register of the block is read. -/
theorem exec_rd {k : Reg} {s : State} (hk : k.present s.params.hasEnc = true) :
    exec (.rd k) s = .next (readAnswer k.num.toNat s) := by
  rw [exec, execRd, if_pos hk, readCount_eq, readReg_eq_tableR]
  rfl

/-- Every block has every register but `ENB` (R27, R66). -/
theorem reg_present_of {hasEnc : Bool} {k : Reg} (h : k = .enb → hasEnc = true) : k.present hasEnc = true := by
  cases k with
  | enb => exact h rfl
  | _ => rfl

/-- R176, R65, R66: the word of `RD` names a register of the block by its number, and `d` is reserved. -/
theorem step_offer_rd (a : Byte) (d : Word) (s : State) : step (offer 0x03#8 a d s) =
    .next (if d.toNat ≠ 0 then refuse .illegalCommand s
      else if 17 < a.toNat ∨ (a.toNat = 17 ∧ s.params.hasEnc = false) then refuse .illegalCommand s
      else readAnswer a.toNat s) := by
  have illegal (h : operandsLegal s.params.hasEnc .rd a d = false) :
      step (offer 0x03#8 a d s) = .next (refuse .illegalCommand s) :=
    step_offer_of_illegal ((wordLegal_code _ .rd a d).trans h)
  split_ifs with hd ha
  · exact illegal (by simp [operandsLegal, hd])
  · refine illegal ?_
    simp only [operandsLegal, Bool.and_eq_false_iff, Bool.or_eq_false_iff, beq_eq_false_iff_ne, decide_eq_false_iff_not]
    refine .inr ⟨by omega, ?_⟩
    obtain ha | ⟨-, henc⟩ := ha
    · exact .inl (by omega)
    · exact .inr henc
  · obtain ⟨hle, henc⟩ := not_or.1 ha
    obtain rfl : d = 0#64 := BitVec.eq_of_toNat_eq (not_not.1 hd)
    obtain ⟨k, rfl, hk⟩ := (exists_reg_num_iff s.params.hasEnc a).2 (by
      by_cases h17 : a.toNat = 17
      · exact .inr ⟨h17, by simpa [h17] using henc⟩
      · exact .inl (by omega))
    exact (step_offer_fields (i := .rd k) hk).trans (exec_rd hk)

/-- R24, U14: with no code latched the four result latches read as zeros, and no characters are counted. -/
theorem exec_rd_latch {k : Reg} {s : State} (hc : s.codev = false)
    (hk : k = .offset ∨ k = .p31 ∨ k = .codeval ∨ k = .code) : exec (.rd k) s = .next (answer 0#8 0#64 s) := by
  have hpresent : k.present s.params.hasEnc = true := by obtain rfl | rfl | rfl | rfl := hk <;> rfl
  have hvalue : readReg k s = 0#64 := by
    obtain rfl | rfl | rfl | rfl := hk <;> exact whileLatched_of_no_codev hc _
  rw [exec_rd hpresent, readAnswer, ← readReg_eq_tableR, hvalue, if_neg (by simp [hc])]

/-- A length that 64 bits hold is shown as its number (R27). -/
theorem lengthWord_toNat {len : Nat} (h : len < 2 ^ 64) : (lengthWord len).toNat = len := by
  rw [lengthWord, if_pos h, BitVec.toNat_ofNat, Nat.mod_eq_of_lt h]

/-- Settles O14: the word by `step_offer_rd`, the command by `exec_rd`, the empty latches by `exec_rd_latch`. -/
theorem rdAnswersTableR : Obligations.RdAnswersTableR :=
  ⟨step_offer_rd, fun _ _ hk => exec_rd (reg_present_of hk),
    fun _ hc => ⟨exec_rd_latch hc (by simp), exec_rd_latch hc (by simp), exec_rd_latch hc (by simp),
      exec_rd_latch hc (by simp)⟩,
    fun _ h => ⟨lengthWord_toNat h, lengthWord_toNat h⟩⟩

/-! ### The digest -/

/-- R121, after the reserved bits. -/
theorem exec_dgstClr (s : State) : exec .dgstClr s =
    .next (if s.phase = .failed then refuse .wrongPhase s else dgstClrEffect s) := by
  rw [exec, execDgstClr, requirePhase_notFailed, zeroCode_eq]
  rfl

/-- R122, after the reserved bits. -/
theorem exec_dgstPush (b : Byte) (s : State) : exec (.dgstPush b) s =
    .next (if s.phase = .failed then refuse .wrongPhase s else dgstPushEffect b s) := by
  rw [exec, execDgstPush, requirePhase_notFailed]
  rfl

/-- Settles O26: the words by their operand form, the commands by `exec_dgstClr` and `exec_dgstPush`. -/
theorem digestIsStagedByteByByte : Obligations.DigestIsStagedByteByByte :=
  ⟨fun a d s => step_offer_no_operand (i := .dgstClr) a d (by simp) (exec_dgstClr s),
    fun a d s => step_offer_byte_operand (f := .dgstPush) a d (by simp) (exec_dgstPush _ s),
    fun b s hp => by rw [exec_dgstClr, exec_dgstPush, if_neg hp, if_neg hp]; exact ⟨rfl, rfl⟩⟩

/-! ### The window and the candidate -/

/-- R147, after the reserved bits. -/
theorem exec_totpWin (w : Word) (s : State) : exec (.totpWin w) s =
    .next (if s.phase = .failed then refuse .wrongPhase s else answer 0#8 0#64 { s with window := w }) := by
  rw [exec, execTotpWin, requirePhase_notFailed]
  rfl

/-- R148, after the reserved bits. -/
theorem exec_candClr (s : State) : exec .candClr s =
    .next (if s.phase = .failed then refuse .wrongPhase s
      else answer 0#8 0#64 { s with cand := [], candovf := false }) := by
  rw [exec, execCandClr, requirePhase_notFailed]
  rfl

/-- R149, after the reserved bits. -/
theorem exec_candPush (c : Byte) (s : State) : exec (.candPush c) s =
    .next (if s.phase = .failed then refuse .wrongPhase s else candPushEffect c s) := by
  rw [exec, execCandPush, requirePhase_notFailed, candPushEffect]
  simp only [bufferFull_iff]
  rfl

/-- Settles O39: the words by their operand form, the commands by `exec_totpWin`, `exec_candClr` and `exec_candPush`. -/
theorem windowAndCandidateAreStaged : Obligations.WindowAndCandidateAreStaged :=
  ⟨fun a d s => step_offer_whole_operand (f := .totpWin) a d (by simp) (exec_totpWin d s),
    fun a d s => step_offer_no_operand (i := .candClr) a d (by simp) (exec_candClr s),
    fun a d s => step_offer_byte_operand (f := .candPush) a d (by simp) (exec_candPush _ s),
    fun w c s hp => by
      rw [exec_totpWin, exec_candClr, exec_candPush, if_neg hp, if_neg hp, if_neg hp]
      exact ⟨rfl, rfl, rfl⟩⟩

end Sys2Proof.Machine
